-- ==== Sys2Proof/Word.lean ====
section
/-! DEFINITION. The word types of the block: `W = 32` (R6), the 8-bit byte (R7), the command word (R83) and the response word (R84). -/

namespace Sys2Proof

/-- A cursor, a length, a count, or a register of `W = 32` bits (R6). Log 1. -/
abbrev Word := BitVec 32

/-- A byte, the only unit of storage and transfer (R7). -/
abbrev Byte := BitVec 8

/-- A command word, 72 bits (R83). -/
abbrev CmdWord := BitVec 72

/-- A response word, 40 bits (R84). -/
abbrev RspWord := BitVec 40

end Sys2Proof
end

