-- ==== Sys2Proof/Syntax.lean ====
section
/-! DEFINITION. What can be said to the block and what it answers: the ports, the ten commands, the statuses, the
response, a command line of the trace notation, and what may take the next step. -/

namespace Sys2Proof

/-- The three command ports (R80): K for the host, P for the producer, C for the consumer. -/
inductive Port
  | K | P | C
deriving DecidableEq, Repr, Inhabited

/-- The ten commands of R85. Fields that R85 marks "ignored" are not part of the command (R89). -/
inductive Instr
  /-- INIT, `op = 0x01` (R110): `arg0` is the requested count, `arg1` the element size. -/
  | init (requestedCount elementSize : Word)
  /-- DESTROY, `op = 0x02` (R117). -/
  | destroy
  /-- WRITE (also spelled IN, R94), `op = 0x03` (R130). -/
  | write (len : Word)
  /-- READ (also spelled OUT, R94), `op = 0x04` (R136). -/
  | read (len : Word)
  /-- PEEK, `op = 0x05` (R142). -/
  | peek (len : Word)
  /-- CAPACITY, `op = 0x06` (R160). -/
  | capacity
  /-- AVAILABLE, `op = 0x07` (R162). -/
  | available
  /-- UNUSED, `op = 0x08` (R164). -/
  | unused
  /-- ISEMPTY, `op = 0x09` (R166). -/
  | isEmpty
  /-- ISFULL, `op = 0x0A` (R168). -/
  | isFull
deriving DecidableEq, Repr

/-- The six statuses a response can carry (R181); no other code is ever produced (S6). -/
inductive Status
  | ok | invalidArgument | invalidConfiguration | allocationFailure | illegalCommand | invalidState
deriving DecidableEq, Repr

/-- The one response of a command (R14, R84): a status and a `W`-bit value. -/
structure Response where
  status : Status
  value  : Word
deriving DecidableEq, Repr

/-- What an agent puts up on its `cmd` channel: the 72-bit word, and the producer's bytes `data` that `SrcRead` will
see if the word is a WRITE (R55, R82, R83). -/
structure CmdIn where
  word : CmdWord
  data : List Byte
deriving DecidableEq, Repr

/-- A command line of the trace notation (R93): a port, a command and, for WRITE, its data. -/
structure CommandLine where
  port  : Port
  instr : Instr
  data  : List Byte
deriving DecidableEq, Repr

/-- Who takes the next step: one of the ports (R60, R69), or the reset input (R210, R211). -/
inductive Turn
  | port (q : Port)
  | reset
deriving DecidableEq, Repr, Inhabited

end Sys2Proof
end

