-- ==== Sys2Proof/WellFormed.lean ====
section
/-! DEFINITION. Which command lines are well formed: the command is legal on its port (R80), and a WRITE's data is never
shorter than its length while no other command carries data (R93). Every term of `Instr` by itself is well formed: its
operands are `W`-bit numbers "used exactly as given" (R83). -/

namespace Sys2Proof

/-- The legality table of R80 and R85. -/
def Instr.legalOn : Instr → Port → Bool
  | .init _ _,  q => q == .K
  | .destroy,   q => q == .K
  | .write _,   q => q == .P
  | .read _,    q => q == .C
  | .peek _,    q => q == .C
  | .capacity,  _ => true
  | .available, _ => true
  | .unused,    _ => true
  | .isEmpty,   _ => true
  | .isFull,    _ => true

/-- The data rule of R93: at least `len` bytes for a WRITE, none for any other command. -/
def Instr.dataFits : Instr → List Byte → Bool
  | .write len, d => len.toNat ≤ d.length
  | .init _ _,  d => d.isEmpty
  | .destroy,   d => d.isEmpty
  | .read _,    d => d.isEmpty
  | .peek _,    d => d.isEmpty
  | .capacity,  d => d.isEmpty
  | .available, d => d.isEmpty
  | .unused,    d => d.isEmpty
  | .isEmpty,   d => d.isEmpty
  | .isFull,    d => d.isEmpty

/-- A well-formed command line (R80, R93). -/
def CommandLine.wf (l : CommandLine) : Bool :=
  l.instr.legalOn l.port && l.instr.dataFits l.data

end Sys2Proof
end

