-- ==== Sys2Proof/Decode.lean ====
section
/-! DEFINITION. The command word's decoder (R83, R85, R86) and its encoder (R83, R85, R89, R96), the status codes (R181) and
the response word (R84). -/

namespace Sys2Proof

/-- The field `op`, bits `[71:64]` (R83). -/
def opField (w : CmdWord) : BitVec 8 := w.extractLsb' 64 8

/-- The field `arg1`, bits `[63:32]` (R83). -/
def arg1Field (w : CmdWord) : Word := w.extractLsb' 32 32

/-- The field `arg0`, bits `[31:0]` (R83). -/
def arg0Field (w : CmdWord) : Word := w.extractLsb' 0 32

/-- What the decoder makes of a command word: one of the ten commands, or a rejection that names the reserved `op` (R87). -/
inductive Decoded
  | instr (i : Instr)
  | reservedOp (op : BitVec 8)
deriving DecidableEq, Repr

/-- The decoder (R85, R86): it looks at `op` and at the operands that `op` uses, and at nothing else. The port check of
R86 is the meanings' own first step. -/
def decode (w : CmdWord) : Decoded :=
  match (opField w).toNat with
  | 0x01 => .instr (.init (arg0Field w) (arg1Field w))
  | 0x02 => .instr .destroy
  | 0x03 => .instr (.write (arg0Field w))
  | 0x04 => .instr (.read (arg0Field w))
  | 0x05 => .instr (.peek (arg0Field w))
  | 0x06 => .instr .capacity
  | 0x07 => .instr .available
  | 0x08 => .instr .unused
  | 0x09 => .instr .isEmpty
  | 0x0A => .instr .isFull
  | _    => .reservedOp (opField w)

/-- The opcode of each command (R85). -/
def Instr.opcode : Instr → BitVec 8
  | .init _ _  => 0x01
  | .destroy   => 0x02
  | .write _   => 0x03
  | .read _    => 0x04
  | .peek _    => 0x05
  | .capacity  => 0x06
  | .available => 0x07
  | .unused    => 0x08
  | .isEmpty   => 0x09
  | .isFull    => 0x0A

/-- The operand a command puts in `arg0`; an ignored field is driven to zero (R85, R89). -/
def Instr.arg0 : Instr → Word
  | .init requestedCount _ => requestedCount
  | .write len | .read len | .peek len => len
  | .destroy | .capacity | .available | .unused | .isEmpty | .isFull => 0

/-- The operand a command puts in `arg1`: INIT's element size, else zero (R85, R89). -/
def Instr.arg1 : Instr → Word
  | .init _ elementSize => elementSize
  | .destroy | .write _ | .read _ | .peek _
  | .capacity | .available | .unused | .isEmpty | .isFull => 0

/-- The 72-bit word of the fields `op`, `arg1`, `arg0` (R83). -/
def packCmd (op : BitVec 8) (arg1 arg0 : Word) : CmdWord :=
  (op.setWidth 72 <<< 64) ||| (arg1.setWidth 72 <<< 32) ||| arg0.setWidth 72

/-- The command word of a command (R96). -/
def encode (i : Instr) : CmdWord := packCmd i.opcode i.arg1 i.arg0

/-- The spellings of each command in the trace notation (R19, R85); IN and OUT are other spellings (R94). -/
def Instr.spellings : Instr → List String
  | .init _ _  => ["INIT"]
  | .destroy   => ["DESTROY"]
  | .write _   => ["WRITE", "IN"]
  | .read _    => ["READ", "OUT"]
  | .peek _    => ["PEEK"]
  | .capacity  => ["CAPACITY"]
  | .available => ["AVAILABLE"]
  | .unused    => ["UNUSED"]
  | .isEmpty   => ["ISEMPTY"]
  | .isFull    => ["ISFULL"]

/-- What the agent of a command line puts up on its `cmd` and source channels (R93, R96). -/
def CommandLine.cmdIn (l : CommandLine) : CmdIn := { word := encode l.instr, data := l.data }

/-- The status codes (R181). -/
def Status.code : Status → BitVec 8
  | .ok                   => 0x00
  | .invalidArgument      => 0x01
  | .invalidConfiguration => 0x02
  | .allocationFailure    => 0x03
  | .illegalCommand       => 0x04
  | .invalidState         => 0x05

/-- The status of a code; `0x06 .. 0xFF` are reserved and name none (R181). -/
def Status.ofCode (c : BitVec 8) : Option Status :=
  match c.toNat with
  | 0x00 => some .ok
  | 0x01 => some .invalidArgument
  | 0x02 => some .invalidConfiguration
  | 0x03 => some .allocationFailure
  | 0x04 => some .illegalCommand
  | 0x05 => some .invalidState
  | _    => none

/-- The 40-bit response word (R84). -/
def Response.word (r : Response) : RspWord :=
  (r.status.code.setWidth 40 <<< 32) ||| r.value.setWidth 40

/-- Reading a response word back (R84, R181). -/
def Response.ofWord (w : RspWord) : Option Response :=
  (Status.ofCode (w.extractLsb' 32 8)).map fun st => { status := st, value := w.extractLsb' 0 32 }

/-- The instruction the decoder reads from a row's bits, numbered as `spec/opcode_table.json` numbers them: the row is one
72-bit word, bit 0 its least significant bit; the bits above `nbits` are 0. Log 17. -/
def decodeTableWord (nbits w : Nat) : Option Instr :=
  match decode (BitVec.ofNat 72 (w % 2 ^ nbits)) with
  | .instr i      => some i
  | .reservedOp _ => none

end Sys2Proof
end

