-- ==== Sys2Proof/Config.lean ====
section
/-! DEFINITION. What a build of the block fixes (R8 to R10), and the free values: opaque constants that nothing can evaluate. -/

namespace Sys2Proof

/-- The backing mode, "selected by build configuration, not by runtime input" (R8). -/
inductive Backing
  | static | dynamic
deriving DecidableEq, Repr

/-- The build parameters, left open by the spec (R8, R9, R10, D3). -/
structure Build where
  /-- `BACKING` (R8). -/
  backing     : Backing
  /-- `FIXED_LENGTH`, used only when the backing is static (R9). -/
  fixedLength : Nat
  /-- `MAX_CAP`, used only when the backing is dynamic (R10). -/
  maxCap      : Nat
deriving DecidableEq, Repr

/-- The bounds R9 and R10 put on the parameters: `1 <= FIXED_LENGTH <= 2^W - 1`, and `MAX_CAP` a power of two with
`1 <= MAX_CAP <= 2^(W-1)`. -/
def Build.Valid (b : Build) : Prop :=
  1 ≤ b.fixedLength ∧ b.fixedLength < 2 ^ 32 ∧ ∃ n, n ≤ 31 ∧ b.maxCap = 2 ^ n

/-- The build that `State.reset` carries: the values `95_test_vectors.md` assumes unless a vector says otherwise.
DESIGN CHOICE, unsafe: log 2. Statements range over every build. -/
def Config.build : Build := { backing := .dynamic, fixedLength := 1024, maxCap := 65536 }

/-- The unspecified contents of the cell at an offset that nothing has stored to since the INIT of an era (R29, U7).
A free value: log 6. -/
opaque Config.freeCell : Nat → Nat → Byte

/-- What the source port answers at an index past the end of the producer's list, for the command of a tag (R55, D24).
A free value: log 5. -/
opaque Config.freeSrc : Nat → Nat → Byte

/-- Who steps next when `turns` says nothing (R69, D28). A free value: log 3. -/
opaque Config.freeTurn : Nat → Turn

end Sys2Proof
end

