-- ==== Sys2Proof/Machine/State.lean ====
section
/-! DEFINITION. The state of the block (10_state.md), its reset value (R39), and the named ways a step can stop. -/

namespace Sys2Proof.Machine

/-- `STORAGE` as plain data (R29): the cells written since the last successful INIT, offsets strictly rising. A cell that
is not listed is unwritten and has no value of its own. Log 6. -/
abbrev Memory := List Host.Cell

/-- Port P's registers while `p_phase = COPY` (R32). -/
structure WriteXfer where
  /-- `p_base`, the value of `WRITE_CURSOR` at SAMPLE. -/
  base : Word
  /-- `p_eff`, the effective length fixed at SAMPLE. -/
  eff  : Word
  /-- `p_i`, the count of bytes stored so far. -/
  i    : Word
deriving DecidableEq, Repr

/-- `c_kind` (R33). -/
inductive ReadKind
  | read | peek
deriving DecidableEq, Repr

/-- Port C's registers while `c_phase = COPY` (R33). -/
structure ReadXfer where
  /-- `c_kind`. -/
  kind : ReadKind
  /-- `c_base`, the value of `READ_CURSOR` at SAMPLE. -/
  base : Word
  /-- `c_eff`, the effective length fixed at SAMPLE. -/
  eff  : Word
  /-- `c_i`, the count of bytes loaded so far. -/
  i    : Word
deriving DecidableEq, Repr

/-- A port's `cmd` and `rsp` channels (R82): the command words its agent has put up and the block has not yet taken, and
the responses the block has given, both oldest first. Log 4, log 8. -/
structure Channel where
  cmds : List CmdIn
  rsp  : List Response
deriving DecidableEq, Repr

/-- The whole state. INVENTORY.md, '## State', lists every field with the rule that names it. -/
structure State where
  /-- The build parameters (R8 to R10, R42); written by no step. Log 2. -/
  build       : Build
  /-- `ALIVE` (R20). -/
  alive       : Bool
  /-- `CAPACITY` (R21). -/
  capacity    : Word
  /-- `ELEMENT_SIZE` (R22). -/
  elementSize : Word
  /-- `MASK` (R23). -/
  mask        : Word
  /-- `WRITE_CURSOR` (R24). -/
  writeCursor : Word
  /-- `READ_CURSOR` (R25). -/
  readCursor  : Word
  /-- `STORAGE` (R29). Log 6. -/
  storage     : Memory
  /-- `p_phase` and the registers of a WRITE in flight (R32); none is IDLE (S9). Log 7. -/
  pXfer       : Option WriteXfer
  /-- `c_phase` and the registers of a READ or PEEK in flight (R33); none is IDLE (S9). Log 7. -/
  cXfer       : Option ReadXfer
  /-- The channels of port K (R82). -/
  portK       : Channel
  /-- The channels of port P (R82). -/
  portP       : Channel
  /-- The channels of port C (R82). -/
  portC       : Channel
  /-- The `data` operand of the command port P took last, as `SrcRead` sees it (R30, R55). -/
  src         : List Byte
  /-- Every index the block has presented on `src_idx`, oldest first (R55, R82). Log 8. -/
  srcIdx      : List Word
  /-- Every `DstWrite(k, v)` the block has performed, oldest first (R56, R82). Log 8. -/
  dst         : List (Word × Byte)
  /-- The model's own: the port whose command word is being run. Log 10. -/
  port        : Port
  /-- The model's own: who steps next; after the last of them the choice is free. Log 3. -/
  turns       : List Turn
  /-- The model's own: the count of steps, to which the free values are applied. Log 3. -/
  tick        : Nat
  /-- The model's own: the tick of the last successful INIT, naming the unwritten cells' contents. Log 6. -/
  era         : Nat
  /-- The model's own: the tick at which port P took its command, naming a short source's free bytes. Log 5. -/
  srcTag      : Nat
deriving DecidableEq, Repr

/-- Why a step stops. No state that meets `Invariant` (Safety.lean) raises any of them. -/
inductive Fault
  /-- A WRITE, READ or PEEK was to SAMPLE on a port that is not IDLE; R61 and R62 have no such step, and a port takes no
  command then (R81). Raised by `pSample` and `cSample`, never by `step`. Safe. Log 11. -/
  | sampleWhileBusy
  /-- A transfer whose copy index has passed its effective length, which R32 and R33 exclude: R61 and R62 enable no step.
  Raised by `pCopyStep` and `cCopyStep`. Safe. Log 12. -/
  | indexPastEnd
  /-- A storage access at an offset that is not one of `0 .. CAPACITY - 1`, which do not exist (R14, R58). Raised by
  `pCopyStep` and `cCopyStep`. Safe. Log 13. -/
  | offsetOutOfRange
deriving DecidableEq, Repr

/-- Why an instruction has no meaning. -/
inductive Refusal
  /-- An instruction that has no meaning yet, by its mnemonic; no arm of `exec` answers it now. Safe. -/
  | notModelled (mnemonic : String)
deriving DecidableEq, Repr

/-- The outcome of a step of this machine. -/
abbrev Outcome := Host.Outcome State Fault Refusal

/-- The reset state of a block built with given parameters (R39, R210). -/
def State.resetOf (b : Build) : State where
  build       := b
  alive       := false
  capacity    := 0
  elementSize := 0
  mask        := 0
  writeCursor := 0
  readCursor  := 0
  storage     := []
  pXfer       := none
  cXfer       := none
  portK       := { cmds := [], rsp := [] }
  portP       := { cmds := [], rsp := [] }
  portC       := { cmds := [], rsp := [] }
  src         := []
  srcIdx      := []
  dst         := []
  port        := .K
  turns       := []
  tick        := 0
  era         := 0
  srcTag      := 0

/-- The machine right after reset (R39), with the build of `Config.build`. Log 2, log 10. -/
def State.reset : State := State.resetOf Config.build

end Sys2Proof.Machine
end

