-- ==== Sys2Proof/Machine/Operands.lean ====
section
/-! DEFINITION. The arithmetic on operands and cursors: `min`, `ispow2`, `npot` (R13, R15, R16), the offset mapper and its
two-chunk form (R52, R53), the capacity an INIT asks for (R112, R113), and `SrcRead`'s answer (R55). -/

namespace Sys2Proof.Machine

/-- `min(a, b)` on unsigned numbers (R13). -/
def wmin (a b : Word) : Word := if a ≤ b then a else b

/-- `ispow2` (R15). -/
def isPow2 (x : Nat) : Bool := x != 0 && 2 ^ x.log2 == x

/-- `npot` (R16): the least power of two that is at least `x`, for `x >= 1`, on exact numbers. -/
def npot (x : Nat) : Nat := if x ≤ 1 then 1 else 2 ^ ((x - 1).log2 + 1)

/-- The offset mapper `off(c, k) = (c +_W k) & MASK` (R52). -/
def off (mask c k : Word) : Word := (c + k) &&& mask

/-- `n1`, the bytes up to the physical wrap boundary (R53). -/
def chunk1 (capacity mask c eff : Word) : Word := wmin eff (capacity - (c &&& mask))

/-- `n2`, the bytes from physical offset 0 (R53). -/
def chunk2 (capacity mask c eff : Word) : Word := eff - chunk1 capacity mask c eff

/-- The capacity INIT computes, or the status it fails with (R110, R112, R113): a floor quotient with static backing, the
rounded exact product with dynamic backing. -/
def capacityFor (b : Build) (requestedCount elementSize : Word) : Except Status Nat :=
  match b.backing with
  | .static =>
    let cap := b.fixedLength / elementSize.toNat
    if isPow2 cap then .ok cap else .error .invalidConfiguration
  | .dynamic =>
    let cap := npot (requestedCount.toNat * elementSize.toNat)
    if cap ≤ b.maxCap then .ok cap else .error .allocationFailure

/-- What `SrcRead(k)` returns (R55): the producer's byte, and a free value past the end of its list. Log 5. -/
def State.srcByte (s : State) (k : Nat) : Byte := (s.src[k]?).getD (Config.freeSrc s.srcTag k)

end Sys2Proof.Machine
end

