-- ==== Sys2Proof/Machine/Flags.lean ====
section
/-! DEFINITION. The occupancy and full/empty status generator (R161, R163, R167, R169) and the status outputs (R172, R173). -/

namespace Sys2Proof.Machine

/-- `avail(wc, rc) = wc -_W rc` (R161). -/
def avail (wc rc : Word) : Word := wc - rc

/-- `unused(wc, rc) = CAPACITY - avail(wc, rc)` (R163). -/
def unused (capacity wc rc : Word) : Word := capacity - avail wc rc

/-- Available, from the published cursors (R161). -/
def State.available (s : State) : Word := avail s.writeCursor s.readCursor

/-- Unused, from the published cursors (R163). -/
def State.unusedBytes (s : State) : Word := unused s.capacity s.writeCursor s.readCursor

/-- The flag `EMPTY` (R167). -/
def State.empty (s : State) : Bool := s.writeCursor == s.readCursor

/-- The flag `FULL`, in its normative form `avail > MASK` (R169). -/
def State.full (s : State) : Bool := s.mask < s.available

/-- The encoding of a truth value in a response (R84). -/
def boolValue (b : Bool) : Word := if b then 1 else 0

/-- The output `st_alive` (R172). -/
def State.stAlive (s : State) : Bool := s.alive

/-- The output `st_capacity` (R172); no meaning while not alive (R173). Log 14. -/
def State.stCapacity (s : State) : Option Word := if s.alive then some s.capacity else none

/-- The output `st_available` (R172); no meaning while not alive (R173). Log 14. -/
def State.stAvailable (s : State) : Option Word := if s.alive then some s.available else none

/-- The output `st_unused` (R172); no meaning while not alive (R173). Log 14. -/
def State.stUnused (s : State) : Option Word := if s.alive then some s.unusedBytes else none

/-- The output `st_empty` (R172); no meaning while not alive (R173). Log 14. -/
def State.stEmpty (s : State) : Option Bool := if s.alive then some s.empty else none

/-- The output `st_full` (R172); no meaning while not alive (R173). Log 14. -/
def State.stFull (s : State) : Option Bool := if s.alive then some s.full else none

end Sys2Proof.Machine
end

