-- ==== Sys2Proof/Machine/Memory.lean ====
section
/-! DEFINITION. The cells of `STORAGE` (R29, R50, R57): one-byte loads and stores on the canonical list. -/

namespace Sys2Proof.Machine

/-- The canonical form: offsets strictly rising. An unlisted cell has no value, so no entry can equal it. Log 6. -/
abbrev Memory.wf (m : Memory) : Prop := (m.map Prod.fst).Pairwise (· < ·)

/-- The byte stored at an offset, none where nothing has been stored since INIT (R29). -/
def Memory.load? : Memory → Nat → Option Byte
  | [],          _ => none
  | (b, v) :: m, a => if a = b then some v else Memory.load? m a

/-- The memory after one byte is stored at an offset (R50, R57). -/
def Memory.store : Memory → Nat → Byte → Memory
  | [],          a, v => [(a, v)]
  | (b, w) :: m, a, v =>
    if a < b then (a, v) :: (b, w) :: m
    else if a = b then (a, v) :: m
    else (b, w) :: Memory.store m a v

end Sys2Proof.Machine
end

