-- ==== Sys2Proof/Machine/Ops.lean ====
section
/-! DEFINITION. The shared operations: the channels of a port, giving a response, `raise` (R14), the port check and the
state guard of R185, `MemRead` and `MemWrite` (R14, R57), taking a command (R81), and the reset input (R210, R211). -/

namespace Sys2Proof.Machine

/-- The channels of a port (R82). -/
def State.chan (s : State) : Port → Channel
  | .K => s.portK
  | .P => s.portP
  | .C => s.portC

/-- The state with a port's channels replaced. -/
def State.setChan (s : State) (q : Port) (c : Channel) : State :=
  match q with
  | .K => { s with portK := c }
  | .P => { s with portP := c }
  | .C => { s with portC := c }

/-- `respond(status, value)` on a port (R14, R84): the one response of the port's command. -/
def State.respond (s : State) (q : Port) (status : Status) (value : Word) : State :=
  s.setChan q { s.chan q with rsp := (s.chan q).rsp ++ [{ status := status, value := value }] }

/-- `raise <Error>` (R14, R180): the error as the response, value 0, nothing else changed. This is all there is of
taking an exception, and there is no return from one (R192, R193). -/
def State.raise (s : State) (q : Port) (error : Status) : State := s.respond q error 0

/-- The port check (R86, R88): a command on a port that does not allow it answers IllegalCommand. -/
def onPorts (allowed : List Port) (s : State) (body : State → Outcome) : Outcome :=
  if s.port ∈ allowed then body s else .next (s.raise s.port .illegalCommand)

/-- The state guard of R186: a command that needs a live buffer answers InvalidState without one. -/
def whenAlive (s : State) (body : State → Outcome) : Outcome :=
  if s.alive then body s else .next (s.raise s.port .invalidState)

/-- `p_phase != IDLE or c_phase != IDLE` (R110, R117, R187). -/
def State.inFlight (s : State) : Bool := s.pXfer.isSome || s.cXfer.isSome

/-- The byte a cell holds: what was stored, or the free value of an unwritten cell (R29). Log 6. -/
def State.byteAt (s : State) (a : Nat) : Byte := (Memory.load? s.storage a).getD (Config.freeCell s.era a)

/-- `MemRead(off, 1)` (R14, R57): none when the offset does not exist. Log 13. -/
def State.memRead (s : State) (o : Word) : Option Byte :=
  if o < s.capacity then some (s.byteAt o.toNat) else none

/-- `MemWrite(off, 1, v)` (R14, R57): none when the offset does not exist. Log 13. -/
def State.memWrite (s : State) (o : Word) (v : Byte) : Option State :=
  if o < s.capacity then some { s with storage := Memory.store s.storage o.toNat v } else none

/-- Port `q` takes the command at the head of its `cmd` channel (R81); port P's source bytes come with it (R55). Log 4. -/
def State.accept (s : State) (q : Port) (c : CmdIn) (rest : List CmdIn) : State :=
  { s.setChan q { s.chan q with cmds := rest } with
    port   := q
    src    := if q = .P then c.data else s.src
    srcTag := if q = .P then s.tick else s.srcTag }

/-- The reset input (R210, R211): the registers and phases of R39; a command in flight is abandoned without a response,
bytes already stored and bytes already delivered stay. Log 9. -/
def State.resetInput (s : State) : State :=
  { s with
    alive := false, capacity := 0, elementSize := 0, mask := 0, writeCursor := 0, readCursor := 0
    pXfer := none, cXfer := none }

/-- Who takes the next step: the head of `turns`, and a free choice once that list is used up (R69). Log 3. -/
def State.turn (s : State) : Turn :=
  match s.turns with
  | t :: _ => t
  | []     => Config.freeTurn s.tick

/-- The turn is used up and the step counted (the model's own bookkeeping). Log 3. -/
def State.spendTurn (s : State) : State := { s with turns := s.turns.tail, tick := s.tick + 1 }

end Sys2Proof.Machine
end

