-- ==== Sys2Proof/Machine/Lifecycle.lean ====
section
/-! DEFINITION. The lifecycle commands INIT and DESTROY (40_lifecycle.md), each one indivisible step on port K (R70). -/

namespace Sys2Proof.Machine

/-- What a successful INIT writes, all in one step (R114): storage contents become unspecified (R29), so nothing is
listed any more and a new era of free cell contents begins. Log 6. -/
def State.construct (s : State) (cap : Nat) (elementSize : Word) : State :=
  { s with
    alive       := true
    capacity    := BitVec.ofNat 32 cap
    elementSize := elementSize
    mask        := BitVec.ofNat 32 cap - 1
    writeCursor := 0
    readCursor  := 0
    storage     := []
    era         := s.tick }

/-- INIT (R110): the checks in the order of R185, then R114. -/
def execInit (requestedCount elementSize : Word) (s : State) : Outcome :=
  onPorts [.K] s fun s =>
    if s.alive || s.inFlight then .next (s.raise s.port .invalidState)
    else if requestedCount = 0 ∨ elementSize = 0 then .next (s.raise s.port .invalidArgument)
    else
      match capacityFor s.build requestedCount elementSize with
      | .error e => .next (s.raise s.port e)
      | .ok cap  => .next ((s.construct cap elementSize).respond s.port .ok 0)

/-- DESTROY (R117, R118): storage is no longer reachable and keeps its bytes (R41). -/
def execDestroy (s : State) : Outcome :=
  onPorts [.K] s fun s =>
    if s.inFlight then .next (s.raise s.port .invalidState)
    else if s.alive then
      .next ({ s with alive := false, writeCursor := 0, readCursor := 0 }.respond s.port .ok 0)
    else .next (s.respond s.port .ok 0)

end Sys2Proof.Machine
end

