-- ==== Sys2Proof/Machine/Queries.lean ====
section
/-! DEFINITION. The occupancy queries (42_occupancy.md): one indivisible step each, legal on every port (R68, R80). -/

namespace Sys2Proof.Machine

/-- A query (R68, R186): on a live buffer it answers OK with a value of the registers and writes nothing. -/
def query (value : State → Word) (s : State) : Outcome :=
  whenAlive s fun s => .next (s.respond s.port .ok (value s))

/-- CAPACITY (R160). -/
def execCapacity (s : State) : Outcome := query State.capacity s

/-- AVAILABLE (R162). -/
def execAvailable (s : State) : Outcome := query State.available s

/-- UNUSED (R164). -/
def execUnused (s : State) : Outcome := query State.unusedBytes s

/-- ISEMPTY (R166). -/
def execIsEmpty (s : State) : Outcome := query (fun s => boolValue s.empty) s

/-- ISFULL (R168). -/
def execIsFull (s : State) : Outcome := query (fun s => boolValue s.full) s

end Sys2Proof.Machine
end

