-- ==== Sys2Proof/Machine/Transfer.lean ====
section
/-! DEFINITION. The transfer commands WRITE, READ and PEEK (41_transfer.md) as the steps of 20_memory.md R60 to R62: the
meanings are the SAMPLE steps; `pCopyStep` and `cCopyStep` are the STORE, LOAD and PUBLISH steps that the port takes on its
later turns. -/

namespace Sys2Proof.Machine

/-- P.SAMPLE (R61, R131): fixes `p_base` and `p_eff`, or answers at once when there is nothing to move. -/
def pSample (len : Word) (s : State) : Outcome :=
  match s.pXfer with
  | some _ => .fault .sampleWhileBusy
  | none   =>
    let eff := wmin len s.unusedBytes
    if eff = 0 then .next (s.respond s.port .ok 0)
    else .next { s with pXfer := some { base := s.writeCursor, eff := eff, i := 0 } }

/-- C.SAMPLE (R62, R137, R143): fixes `c_kind`, `c_base` and `c_eff`, or answers at once when there is nothing to move. -/
def cSample (kind : ReadKind) (len : Word) (s : State) : Outcome :=
  match s.cXfer with
  | some _ => .fault .sampleWhileBusy
  | none   =>
    let eff := wmin len s.available
    if eff = 0 then .next (s.respond s.port .ok 0)
    else .next { s with cXfer := some { kind := kind, base := s.readCursor, eff := eff, i := 0 } }

/-- P.STORE (R61, R132): one byte from the source to its cell. -/
def pStore (x : WriteXfer) (s : State) : Outcome :=
  match s.memWrite (off s.mask x.base x.i) (s.srcByte x.i.toNat) with
  | none    => .fault .offsetOutOfRange
  | some s' => .next { s' with srcIdx := s.srcIdx ++ [x.i], pXfer := some { x with i := x.i + 1 } }

/-- P.PUBLISH (R61, R133, R134): the cursor advances, wrapping at `2^W`, and the count is the response. -/
def pPublish (x : WriteXfer) (s : State) : Outcome :=
  .next ({ s with writeCursor := x.base + x.eff, pXfer := none }.respond .P .ok x.eff)

/-- Port P's next step of the WRITE it has in flight (R61). -/
def pCopyStep (x : WriteXfer) (s : State) : Outcome :=
  if x.i < x.eff then pStore x s
  else if x.i = x.eff then pPublish x s
  else .fault .indexPastEnd

/-- C.LOAD (R62, R138): one byte from its cell to the destination. -/
def cLoad (y : ReadXfer) (s : State) : Outcome :=
  match s.memRead (off s.mask y.base y.i) with
  | none   => .fault .offsetOutOfRange
  | some v => .next { s with dst := s.dst ++ [(y.i, v)], cXfer := some { y with i := y.i + 1 } }

/-- C.PUBLISH (R62): READ advances its cursor and returns its count (R139, R140); PEEK writes no register and returns 0
(R142, R144). -/
def cPublish (y : ReadXfer) (s : State) : Outcome :=
  match y.kind with
  | .read => .next ({ s with readCursor := y.base + y.eff, cXfer := none }.respond .C .ok y.eff)
  | .peek => .next ({ s with cXfer := none }.respond .C .ok 0)

/-- Port C's next step of the READ or PEEK it has in flight (R62). -/
def cCopyStep (y : ReadXfer) (s : State) : Outcome :=
  if y.i < y.eff then cLoad y s
  else if y.i = y.eff then cPublish y s
  else .fault .indexPastEnd

/-- WRITE (R130). -/
def execWrite (len : Word) (s : State) : Outcome :=
  onPorts [.P] s fun s => whenAlive s (pSample len)

/-- READ (R136). -/
def execRead (len : Word) (s : State) : Outcome :=
  onPorts [.C] s fun s => whenAlive s (cSample .read len)

/-- PEEK (R142). -/
def execPeek (len : Word) (s : State) : Outcome :=
  onPorts [.C] s fun s => whenAlive s (cSample .peek len)

end Sys2Proof.Machine
end

