-- ==== Sys2Proof/Machine/Dispatch.lean ====
section
/-! DEFINITION. One arm for each command of R85: its meaning. -/

namespace Sys2Proof.Machine

/-- What a command does on the port that took it (R86). -/
def exec (i : Instr) (s : State) : Host.Outcome State Fault Refusal :=
  match i with
  | .init requestedCount elementSize => Sys2Proof.Machine.execInit requestedCount elementSize s
  | .destroy => Sys2Proof.Machine.execDestroy s
  | .write len => Sys2Proof.Machine.execWrite len s
  | .read len => Sys2Proof.Machine.execRead len s
  | .peek len => Sys2Proof.Machine.execPeek len s
  | .capacity => Sys2Proof.Machine.execCapacity s
  | .available => Sys2Proof.Machine.execAvailable s
  | .unused => Sys2Proof.Machine.execUnused s
  | .isEmpty => Sys2Proof.Machine.execIsEmpty s
  | .isFull => Sys2Proof.Machine.execIsFull s

end Sys2Proof.Machine
end

