-- ==== Sys2Proof/Machine/Sequencer.lean ====
section
/-! DEFINITION. The command sequencer: what a turn of a port does (R60, R81, R86), and putting a command word up on the port
it belongs to. -/

namespace Sys2Proof.Machine

/-- A command word that a port has taken (R86): a reserved `op` is answered IllegalCommand (R87), a defined one is run. -/
def runCommand (w : CmdWord) (s : State) : Outcome :=
  match decode w with
  | .instr i      => exec i s
  | .reservedOp _ => .next (s.raise s.port .illegalCommand)

/-- An idle port takes the oldest command word put up on it and runs it (R81); with none there is nothing to do. Log 3. -/
def acceptNext (q : Port) (s : State) : Outcome :=
  match (s.chan q).cmds with
  | []        => .next s
  | c :: rest => runCommand c.word (s.accept q c rest)

/-- A turn of a port: the next step of its transfer in flight (R61, R62), else its next command (R81). -/
def portTurn (q : Port) (s : State) : Outcome :=
  match q with
  | .K => acceptNext .K s
  | .P =>
    match s.pXfer with
    | some x => pCopyStep x s
    | none   => acceptNext .P s
  | .C =>
    match s.cXfer with
    | some y => cCopyStep y s
    | none   => acceptNext .C s

/-- A turn: a port's (R60, R69) or the reset input's (R210, R211). -/
def takeTurn (t : Turn) (s : State) : Outcome :=
  match t with
  | .port q => portTurn q s
  | .reset  => .next s.resetInput

/-- `n` turns of one port with no other port's step between, stopping at the first fault or refusal (R67, R93). -/
def portTurns (q : Port) : Nat → State → Outcome
  | 0,     s => .next s
  | n + 1, s =>
    match portTurn q s with
    | .next s'   => portTurns q n s'
    | .fault r   => .fault r
    | .refused r => .refused r

/-- The port a command word is put up on: one on which R80 allows it; K for a query and for a reserved `op`. Log 17. -/
def homePort (w : CmdWord) : Port :=
  match decode w with
  | .instr (.write _)             => .P
  | .instr (.read _)              => .C
  | .instr (.peek _)              => .C
  | .instr (.init _ _)            => .K
  | .instr .destroy               => .K
  | .instr .capacity              => .K
  | .instr .available             => .K
  | .instr .unused                => .K
  | .instr .isEmpty               => .K
  | .instr .isFull                => .K
  | .reservedOp _                 => .K

/-- The state with port `q` IDLE (R60: a port takes a command only then). Log 17. -/
def State.idlePort (s : State) : Port → State
  | .K => s
  | .P => { s with pXfer := none }
  | .C => { s with cXfer := none }

/-- The state with a command word at the head of its port's `cmd` channel, that port IDLE and next to step. Log 17. -/
def State.offer (s : State) (w : CmdWord) : State :=
  let q := homePort w
  let s := s.idlePort q
  { s.setChan q { s.chan q with cmds := { word := w, data := [] } :: (s.chan q).cmds } with
    turns := .port q :: s.turns }

end Sys2Proof.Machine
end

