-- ==== Sys2Proof/Machine/Step.lean ====
section
/-! DEFINITION. One step of the machine, and the state with a given command word next to run. -/

namespace Sys2Proof.Machine

/-- One step (R60, R68 to R70, R210): the next turn is taken. -/
def step (s : State) : Host.Outcome State Fault Refusal := takeTurn s.turn s.spendTurn

/-- `s` with the command word of the low `nbits` bits of `w` offered, so that the very next step takes and runs it. Log 17. -/
def State.withFetchWord (s : State) (nbits w : Nat) : State :=
  s.offer (BitVec.ofNat 72 (w % 2 ^ nbits))

end Sys2Proof.Machine
end

