-- ==== Sys2Proof/Machine/Sequential.lean ====
section
/-! DEFINITION. The function forms of 41_transfer.md: WRITE, READ and PEEK as functions of the state at their SAMPLE
(R130, R136, R142), written with the two chunks of R53. `step` does not use them; statements compare its steps with them. -/

namespace Sys2Proof.Machine

/-- `for j = 0 .. n - 1: MemWrite(o + j, 1, SrcRead(k + j))` (R130). -/
def storeRun (byte : Nat → Byte) : Nat → Nat → Nat → Memory → Memory
  | 0,     _, _, m => m
  | n + 1, o, k, m => storeRun byte n (o + 1) (k + 1) (Memory.store m o (byte k))

/-- `DstWrite(k + j, MemRead(o + j, 1))` for `j = 0 .. n - 1` (R136). -/
def loadRun (byte : Nat → Byte) : Nat → Nat → Nat → List (Word × Byte)
  | 0,     _, _ => []
  | n + 1, o, k => (BitVec.ofNat 32 k, byte o) :: loadRun byte n (o + 1) (k + 1)

/-- The effective length of a WRITE (R131). -/
def State.writeEff (s : State) (len : Word) : Word := wmin len s.unusedBytes

/-- The effective length of a READ or PEEK (R137, R143). -/
def State.readEff (s : State) (len : Word) : Word := wmin len s.available

/-- The storage after WRITE's two chunks (R130, R132). -/
def State.wholeStore (s : State) (eff : Word) : Memory :=
  let o  := s.writeCursor &&& s.mask
  let n1 := chunk1 s.capacity s.mask s.writeCursor eff
  let n2 := chunk2 s.capacity s.mask s.writeCursor eff
  storeRun s.srcByte n2.toNat 0 n1.toNat (storeRun s.srcByte n1.toNat o.toNat 0 s.storage)

/-- The destination stores of READ's or PEEK's two chunks (R136, R138). -/
def State.wholeLoad (s : State) (eff : Word) : List (Word × Byte) :=
  let o  := s.readCursor &&& s.mask
  let n1 := chunk1 s.capacity s.mask s.readCursor eff
  let n2 := chunk2 s.capacity s.mask s.readCursor eff
  loadRun s.byteAt n1.toNat o.toNat 0 ++ loadRun s.byteAt n2.toNat 0 n1.toNat

/-- WRITE as a function (R130): the bytes stored, the indices read from the source in order, the cursor advanced, the count
returned. -/
def State.wholeWrite (s : State) (len : Word) : State :=
  let eff := s.writeEff len
  { s with
    storage     := s.wholeStore eff
    srcIdx      := s.srcIdx ++ (List.range eff.toNat).map (BitVec.ofNat 32)
    writeCursor := s.writeCursor + eff }.respond .P .ok eff

/-- READ as a function (R136): the bytes delivered, the cursor advanced, the count returned. -/
def State.wholeRead (s : State) (len : Word) : State :=
  let eff := s.readEff len
  { s with
    dst        := s.dst ++ s.wholeLoad eff
    readCursor := s.readCursor + eff }.respond .C .ok eff

/-- PEEK as a function (R142): the bytes delivered and nothing else; the response value is 0 (R144). -/
def State.wholePeek (s : State) (len : Word) : State :=
  { s with dst := s.dst ++ s.wholeLoad (s.readEff len) }.respond .C .ok 0

end Sys2Proof.Machine
end

