-- ==== Sys2Proof/Safety.lean ====
section
/-! DEFINITION. The terms in which claims speak of safe runs: the bytes the buffer holds (R37), the invariant of the machine
(R34 to R36, R32, R33, R66), and when a run is over (R215). -/

namespace Sys2Proof.Machine

/-- The byte at logical position `c +_W k` (R37, R52). -/
def State.logicalByte (s : State) (c : Word) (k : Nat) : Byte :=
  s.byteAt (off s.mask c (BitVec.ofNat 32 k)).toNat

/-- The buffer's logical contents, oldest byte first (R37). -/
def State.contents (s : State) : List Byte :=
  (List.range s.available.toNat).map (s.logicalByte s.readCursor)

/-- The cell at logical position `c +_W k` has been stored to since the last INIT (R29, R138). -/
def State.written (s : State) (c : Word) (k : Nat) : Prop :=
  (Memory.load? s.storage (off s.mask c (BitVec.ofNat 32 k)).toNat).isSome

/-- The `DstWrite`s of the first `n` bytes from cursor `c` (R56, R138). -/
def State.deliveries (s : State) (c : Word) (n : Nat) : List (Word × Byte) :=
  (List.range n).map fun k => (BitVec.ofNat 32 k, s.logicalByte c k)

/-- What holds of a live buffer's registers (R34, R35, R23). -/
structure LiveInv (s : State) : Prop where
  /-- `CAPACITY` is a power of two in `[1, 2^(W-1)]` (R11, R34). -/
  pow2    : ∃ n, n ≤ 31 ∧ s.capacity.toNat = 2 ^ n
  /-- `MASK == CAPACITY - 1` (R23). -/
  maskEq  : s.mask = s.capacity - 1
  /-- `(WRITE_CURSOR -_W READ_CURSOR) <= CAPACITY` (R35). -/
  bound   : s.available ≤ s.capacity
  /-- Every listed cell exists (R29, R58). -/
  cells   : ∀ a, (Memory.load? s.storage a).isSome → a < s.capacity.toNat
  /-- Every byte the buffer holds was stored by a WRITE since the last INIT (R29, R138). -/
  window  : ∀ k, k < s.available.toNat → s.written s.readCursor k

/-- What holds while port P is in COPY (R32, R66). -/
structure WriteInv (s : State) (x : WriteXfer) : Prop where
  live    : s.alive = true
  /-- `WRITE_CURSOR == p_base` (R32). -/
  base    : x.base = s.writeCursor
  pos     : 0 < x.eff
  /-- `p_i <= p_eff` (R32). -/
  index   : x.i ≤ x.eff
  /-- `(p_base -_W READ_CURSOR) + p_eff <= CAPACITY` (R66). -/
  room    : s.available.toNat + x.eff.toNat ≤ s.capacity.toNat
  /-- The bytes stored so far are the source's, in order (R132). -/
  copied  : ∀ k, k < x.i.toNat →
    Memory.load? s.storage (off s.mask x.base (BitVec.ofNat 32 k)).toNat = some (s.srcByte k)

/-- What holds while port C is in COPY (R33, R66). -/
structure ReadInv (s : State) (y : ReadXfer) : Prop where
  live      : s.alive = true
  /-- `READ_CURSOR == c_base` (R33). -/
  base      : y.base = s.readCursor
  pos       : 0 < y.eff
  /-- `c_i <= c_eff` (R33). -/
  index     : y.i ≤ y.eff
  /-- The bytes being loaded are inside the window (R66). -/
  inside    : y.eff ≤ s.available
  /-- The last `c_i` destination stores are the oldest bytes, in order (R138). -/
  delivered : ∃ before, s.dst = before ++ s.deliveries y.base y.i.toNat

/-- The invariant of the machine: it holds after reset, and every step keeps it. -/
structure Invariant (s : State) : Prop where
  build   : s.build.Valid
  memory  : Memory.wf s.storage
  live    : s.alive = true → LiveInv s
  /-- A buffer that is not alive has both cursors 0 (R39, R41) and no transfer in flight (R111). -/
  dead    : s.alive = false →
    s.writeCursor = 0 ∧ s.readCursor = 0 ∧ s.pXfer = none ∧ s.cXfer = none
  writing : ∀ x, s.pXfer = some x → WriteInv s x
  reading : ∀ y, s.cXfer = some y → ReadInv s y

/-- A run is over: no port has a transfer in flight, so every accepted command has had its response (R215), and no command
word waits on a port. R215 speaks of accepted commands only; that a word put up and not yet accepted keeps the run open is the
model's choice. DESIGN CHOICE: log 18. -/
def State.runOver (s : State) : Bool :=
  s.pXfer.isNone && s.cXfer.isNone && s.portK.cmds.isEmpty && s.portP.cmds.isEmpty && s.portC.cmds.isEmpty

/-- The commands put up on a port and not yet answered: those waiting, and the one in flight (R81). -/
def State.unanswered (s : State) (q : Port) : Nat :=
  (s.chan q).cmds.length +
    match q with
    | .K => 0
    | .P => if s.pXfer.isSome then 1 else 0
    | .C => if s.cXfer.isSome then 1 else 0

/-! ### What stays the same -/

/-- The six named registers are unchanged (R20 to R25). -/
structure SameRegisters (s t : State) : Prop where
  alive       : t.alive = s.alive
  capacity    : t.capacity = s.capacity
  elementSize : t.elementSize = s.elementSize
  mask        : t.mask = s.mask
  writeCursor : t.writeCursor = s.writeCursor
  readCursor  : t.readCursor = s.readCursor

/-- Every cell of `STORAGE` is unchanged: what is stored, and what every offset reads as (R29). -/
structure SameStorage (s t : State) : Prop where
  storage : t.storage = s.storage
  bytes   : ∀ a, t.byteAt a = s.byteAt a

/-- Both ports' in-flight registers are unchanged (R32, R33). -/
structure SameTransfers (s t : State) : Prop where
  pXfer : t.pXfer = s.pXfer
  cXfer : t.cXfer = s.cXfer

/-- Every port's `cmd` and `rsp` channels are unchanged (R82). -/
def SameChannels (s t : State) : Prop := ∀ q, t.chan q = s.chan q

/-- No source byte has been asked for and no destination byte delivered, and the source is the same (R55, R56). -/
structure SameData (s t : State) : Prop where
  src    : ∀ k, t.srcByte k = s.srcByte k
  srcIdx : t.srcIdx = s.srcIdx
  dst    : t.dst = s.dst

/-- The build parameters (R42) and the model's own bookkeeping are unchanged. -/
structure SameBook (s t : State) : Prop where
  build : t.build = s.build
  port  : t.port = s.port
  turns : t.turns = s.turns
  tick  : t.tick = s.tick

/-- The responses of one port grow by one response, and no port's channels change otherwise (R81). -/
structure OneAnswer (s t : State) (q : Port) (r : Response) : Prop where
  answer : t.chan q = { s.chan q with rsp := (s.chan q).rsp ++ [r] }
  others : ∀ p, p ≠ q → t.chan p = s.chan p

/-- One response on one port and nothing else at all: what an error is (R14 `raise`, R180), and what a query is (R68). -/
structure AnsweredOnly (s t : State) (q : Port) (r : Response) : Prop where
  answer    : OneAnswer s t q r
  registers : SameRegisters s t
  storage   : SameStorage s t
  transfers : SameTransfers s t
  data      : SameData s t
  book      : SameBook s t

/-! ### The byte stream -/

/-- The bytes that enter and the bytes that leave the buffer in the next step: a WRITE's PUBLISH admits its source bytes, a
READ's PUBLISH releases the bytes that have been delivered for it (R133, R139). -/
def State.streamOf (s : State) : List Byte × List Byte :=
  match s.turn with
  | .port .P =>
    match s.pXfer with
    | some x => if x.i = x.eff then ((List.range x.eff.toNat).map s.srcByte, []) else ([], [])
    | none   => ([], [])
  | .port .C =>
    match s.cXfer with
    | some y =>
      if y.i = y.eff ∧ y.kind = .read then ([], (s.dst.drop (s.dst.length - y.eff.toNat)).map Prod.snd) else ([], [])
    | none   => ([], [])
  | .port .K => ([], [])
  | .reset   => ([], [])

/-- `n` steps of a buffer that stays alive, with all the bytes that entered and all that left, in order; none if a step
stops or the buffer does not stay alive. -/
def streamRun : Nat → State → Option (State × List Byte × List Byte)
  | 0,     s => some (s, [], [])
  | n + 1, s =>
    match step s with
    | .next s' =>
      if s'.alive then
        (streamRun n s').map fun r => (r.1, s.streamOf.1 ++ r.2.1, s.streamOf.2 ++ r.2.2)
      else none
    | .fault _   => none
    | .refused _ => none

end Sys2Proof.Machine
end

