-- ==== Sys2Proof/Certificates/Slice0/Obligations.lean ====
section
/-! DEFINITION. The statements for the provers, each with the rules of the spec it formalises. -/

open Sys2Proof Sys2Proof.Machine

/-! ### Encodings (30_encoding.md) -/

/-- The command words of 95_test_vectors.md 2.7, written out from R83 and R85, decode to the commands they stand for, and
the reserved ones are rejected by name. A sanity statement on fixed words. -/
def Obligations.SpecWordsDecode : Prop :=
  decode 0x010000000100000008#72 = .instr (.init 8 1) ∧
  decode 0x010000000300000008#72 = .instr (.init 8 3) ∧
  decode 0x020000000000000000#72 = .instr .destroy ∧
  decode 0x030000000000000003#72 = .instr (.write 3) ∧
  decode 0x040000000000000005#72 = .instr (.read 5) ∧
  decode 0x050000000000000003#72 = .instr (.peek 3) ∧
  decode 0x06DEADBEEF12345678#72 = .instr .capacity ∧
  decode 0x070000000000000000#72 = .instr .available ∧
  decode 0x080000000000000000#72 = .instr .unused ∧
  decode 0x090000000000000000#72 = .instr .isEmpty ∧
  decode 0x0A0000000000000000#72 = .instr .isFull ∧
  decode 0x000000000000000000#72 = .reservedOp 0x00 ∧
  decode 0x0B0000000000000000#72 = .reservedOp 0x0B ∧
  decode 0xFFFFFFFFFFFFFFFFFF#72 = .reservedOp 0xFF

/-- Decode and encode agree, for all ten commands at every operand value (R83, R85, R96), and reading a response word back
gives the response, for every status and value (R84, R181). -/
def Obligations.DecodeOfEncodeIsTheCommand : Prop :=
  (∀ i : Instr, decode (encode i) = .instr i) ∧
  (∀ r : Response, Response.ofWord r.word = some r)

/-- R89: which words stand for which command. The fields marked "ignored" are not examined, so DESTROY and the queries have
every word with their `op`, WRITE, READ and PEEK every word with their `op` and `len`, and INIT exactly one word for each pair
of operands. The fields are written as divisions and remainders of the word's number (R83). -/
def Obligations.IgnoredFieldsAreNotExamined : Prop :=
  ∀ w : CmdWord,
    (∀ count size : Word, decode w = .instr (.init count size) ↔
      w.toNat = 0x01 * 2 ^ 64 + size.toNat * 2 ^ 32 + count.toNat) ∧
    (decode w = .instr .destroy ↔ w.toNat / 2 ^ 64 = 0x02) ∧
    (∀ len : Word, decode w = .instr (.write len) ↔ w.toNat / 2 ^ 64 = 0x03 ∧ w.toNat % 2 ^ 32 = len.toNat) ∧
    (∀ len : Word, decode w = .instr (.read len) ↔ w.toNat / 2 ^ 64 = 0x04 ∧ w.toNat % 2 ^ 32 = len.toNat) ∧
    (∀ len : Word, decode w = .instr (.peek len) ↔ w.toNat / 2 ^ 64 = 0x05 ∧ w.toNat % 2 ^ 32 = len.toNat) ∧
    (decode w = .instr .capacity ↔ w.toNat / 2 ^ 64 = 0x06) ∧
    (decode w = .instr .available ↔ w.toNat / 2 ^ 64 = 0x07) ∧
    (decode w = .instr .unused ↔ w.toNat / 2 ^ 64 = 0x08) ∧
    (decode w = .instr .isEmpty ↔ w.toNat / 2 ^ 64 = 0x09) ∧
    (decode w = .instr .isFull ↔ w.toNat / 2 ^ 64 = 0x0A)

/-- R84: the response word is `status` in bits `[39:32]` and `value` in bits `[31:0]`, with the status codes of R181, of which
none is above 0x05. -/
def Obligations.ResponseWordLayout : Prop :=
  (∀ r : Response, r.word.toNat = r.status.code.toNat * 2 ^ 32 + r.value.toNat) ∧
  [Status.ok, .invalidArgument, .invalidConfiguration, .allocationFailure, .illegalCommand, .invalidState].map Status.code =
    [0x00, 0x01, 0x02, 0x03, 0x04, 0x05] ∧
  (∀ c : BitVec 8, Status.ofCode c = none ↔ 0x06 ≤ c.toNat)

/-- R87: a word with a reserved `op` (0x00, or 0x0B and above), on any port, is answered IllegalCommand with value 0 and
changes nothing else. -/
def Obligations.ReservedOpcodeAnswersIllegalCommand : Prop :=
  ∀ (w : CmdWord) (s : State), (w.toNat / 2 ^ 64 = 0x00 ∨ 0x0B ≤ w.toNat / 2 ^ 64) →
    ∃ t, runCommand w s = .next t ∧ AnsweredOnly s t s.port { status := .illegalCommand, value := 0 }

/-- R88: INIT, DESTROY, READ or PEEK on P, INIT, DESTROY or WRITE on C, and WRITE, READ or PEEK on K change nothing and are
answered IllegalCommand, in every state and for every operand (R188). -/
def Obligations.WrongPortAnswersIllegalCommand : Prop :=
  ∀ (s : State) (i : Instr) (a b : Word),
    (s.port = .P ∧ (i = .init a b ∨ i = .destroy ∨ i = .read a ∨ i = .peek a)) ∨
    (s.port = .C ∧ (i = .init a b ∨ i = .destroy ∨ i = .write a)) ∨
    (s.port = .K ∧ (i = .write a ∨ i = .read a ∨ i = .peek a)) →
    ∃ t, exec i s = .next t ∧ AnsweredOnly s t s.port { status := .illegalCommand, value := 0 }

/-! ### Steps (20_memory.md, 30_encoding.md) -/

/-- A step runs the decoded command: when the port whose turn it is has nothing in flight and the oldest command word put up
on it decodes to `i`, the step is `exec i` at the state in which the turn is spent and the word taken from the channel. That
state differs from `s` only in the bookkeeping, the channel, the executing port, and, on port P, the source bytes. Whose turn it
is, and that words wait in a channel, are the model's own conventions (logs 3 and 4). -/
def Obligations.StepRunsTheDecodedCommand : Prop :=
  ∀ (s : State) (q : Port) (c : CmdIn) (rest : List CmdIn) (i : Instr),
    s.turn = .port q → (q = .P → s.pXfer = none) → (q = .C → s.cXfer = none) →
    (s.chan q).cmds = c :: rest → decode c.word = .instr i →
    ∃ u, step s = exec i u ∧ u.port = q ∧ u.chan q = { s.chan q with cmds := rest } ∧
      (∀ p, p ≠ q → u.chan p = s.chan p) ∧
      SameRegisters s u ∧ SameStorage s u ∧ SameTransfers s u ∧
      u.build = s.build ∧ u.srcIdx = s.srcIdx ∧ u.dst = s.dst ∧
      u.turns = s.turns.tail ∧ u.tick = s.tick + 1 ∧
      (q = .P → ∀ k, k < c.data.length → some (u.srcByte k) = c.data[k]?) ∧
      (q ≠ .P → ∀ k, u.srcByte k = s.srcByte k)

/-- The other turns (R60, R61, R62, R81, R210): a port with a transfer in flight takes that transfer's next step, a port with
nothing in flight and no command waiting does nothing, and the reset input acts at once. The turns are the model's own
convention (log 3). -/
def Obligations.StepContinuesWhatIsInFlight : Prop :=
  ∀ s : State,
    (∀ x, s.turn = .port .P → s.pXfer = some x → step s = pCopyStep x s.spendTurn) ∧
    (∀ y, s.turn = .port .C → s.cXfer = some y → step s = cCopyStep y s.spendTurn) ∧
    (∀ q, s.turn = .port q → (q = .P → s.pXfer = none) → (q = .C → s.cXfer = none) → (s.chan q).cmds = [] →
      step s = .next s.spendTurn) ∧
    (s.turn = .reset → step s = .next s.spendTurn.resetInput)

/-! ### Reset (10_state.md, 70_reset_and_hazards.md) -/

/-- The state after reset, whatever the build: every register 0, both phases IDLE, no command in flight and no response
pending, as R39 says. The other clauses are the model's: no cell of STORAGE is listed where R39 leaves the contents
unspecified (log 6), the histories of source indices and of delivered bytes are empty (log 8), and `State.reset` is this
state for the example build `Config.build` (log 2). -/
def Obligations.ResetState : Prop :=
  ∀ b : Build,
    let s := State.resetOf b
    s.alive = false ∧ s.capacity = 0 ∧ s.elementSize = 0 ∧ s.mask = 0 ∧ s.writeCursor = 0 ∧ s.readCursor = 0 ∧
    (∀ a, Memory.load? s.storage a = none) ∧ s.pXfer = none ∧ s.cXfer = none ∧
    (∀ q, s.chan q = { cmds := [], rsp := [] }) ∧ s.srcIdx = [] ∧ s.dst = [] ∧
    State.reset = State.resetOf Config.build

/-- R211: reset while a command is in flight abandons it: no port gets a response, both phases go to IDLE and the cursors to 0
without a PUBLISH, the bytes stored and the bytes delivered stay, and the buffer is not alive, so that the bytes are
unreachable. -/
def Obligations.ResetAbandonsTheCommandInFlight : Prop :=
  ∀ s : State, s.turn = .reset →
    ∃ t, step s = .next t ∧ t.alive = false ∧ t.writeCursor = 0 ∧ t.readCursor = 0 ∧
      t.capacity = 0 ∧ t.mask = 0 ∧ t.elementSize = 0 ∧ t.pXfer = none ∧ t.cXfer = none ∧
      (∀ q, (t.chan q).rsp = (s.chan q).rsp) ∧ (∀ a, Memory.load? t.storage a = Memory.load? s.storage a) ∧
      t.srcIdx = s.srcIdx ∧ t.dst = s.dst ∧ t.build = s.build

/-! ### Lifecycle (40_lifecycle.md) -/

/-- R112 and R114: with dynamic backing, let `2^n` be the least power of two that is at least the exact product. INIT on port
K, on a buffer that is not alive, with nonzero operands, constructs a buffer of `2^n` bytes when `2^n` does not exceed
`MAX_CAP`, with the registers of R114 written, every other port and both transfers untouched; and answers AllocationFailure,
with nothing written, when it does. That no cell of STORAGE is listed afterwards is the model's form of "unspecified", which is
all R114 says of the contents (log 6). -/
def Obligations.InitWithDynamicBacking : Prop :=
  ∀ (s : State) (count size : Word) (n : Nat),
    s.port = .K → s.alive = false → s.pXfer = none → s.cXfer = none → s.build.Valid → s.build.backing = .dynamic →
    count ≠ 0 → size ≠ 0 →
    count.toNat * size.toNat ≤ 2 ^ n → (∀ m, count.toNat * size.toNat ≤ 2 ^ m → n ≤ m) →
    ∃ t, exec (.init count size) s = .next t ∧
      (2 ^ n ≤ s.build.maxCap →
        t.alive = true ∧ t.capacity.toNat = 2 ^ n ∧ t.elementSize = size ∧ t.mask.toNat = 2 ^ n - 1 ∧
        t.writeCursor = 0 ∧ t.readCursor = 0 ∧ (∀ a, Memory.load? t.storage a = none) ∧
        OneAnswer s t .K { status := .ok, value := 0 } ∧ SameTransfers s t ∧ SameData s t ∧ SameBook s t) ∧
      (s.build.maxCap < 2 ^ n → AnsweredOnly s t .K { status := .allocationFailure, value := 0 })

/-- R113: with static backing the capacity is the floor quotient of `FIXED_LENGTH` by the element size. INIT on port K, on a
buffer that is not alive, with nonzero operands, constructs it when the quotient is a power of two (1 counts, 0 does not),
and answers InvalidConfiguration, with nothing written, when it is not. The requested count is not used. That no cell of STORAGE
is listed afterwards is the model's form of "unspecified", which is all R114 says of the contents (log 6). -/
def Obligations.InitWithStaticBacking : Prop :=
  ∀ (s : State) (count size : Word),
    s.port = .K → s.alive = false → s.pXfer = none → s.cXfer = none → s.build.Valid → s.build.backing = .static →
    count ≠ 0 → size ≠ 0 →
    ∃ t, exec (.init count size) s = .next t ∧
      (∀ n, s.build.fixedLength / size.toNat = 2 ^ n →
        t.alive = true ∧ t.capacity.toNat = 2 ^ n ∧ t.elementSize = size ∧ t.mask.toNat = 2 ^ n - 1 ∧
        t.writeCursor = 0 ∧ t.readCursor = 0 ∧ (∀ a, Memory.load? t.storage a = none) ∧
        OneAnswer s t .K { status := .ok, value := 0 } ∧ SameTransfers s t ∧ SameData s t ∧ SameBook s t) ∧
      ((∀ n, s.build.fixedLength / size.toNat ≠ 2 ^ n) →
        AnsweredOnly s t .K { status := .invalidConfiguration, value := 0 })

/-- R182: a zero count or a zero element size, in both backing modes, is InvalidArgument, tested before the element size is
used as a divisor; on a live buffer InvalidState comes first (R185). -/
def Obligations.InitChecksItsArguments : Prop :=
  ∀ (s : State) (count size : Word), s.port = .K → (count = 0 ∨ size = 0) →
    ∃ t, exec (.init count size) s = .next t ∧
      (s.alive = false → s.pXfer = none → s.cXfer = none →
        AnsweredOnly s t .K { status := .invalidArgument, value := 0 }) ∧
      (s.alive = true → AnsweredOnly s t .K { status := .invalidState, value := 0 })

/-- R111 (and the same guard of DESTROY's pseudocode, R117): INIT on a live buffer, and INIT or DESTROY while port P or port
C is in COPY, answer InvalidState and change nothing, whatever the operands; the transfer in flight is not disturbed. -/
def Obligations.LifecycleRefusedInFlight : Prop :=
  ∀ (s : State) (count size : Word), s.port = .K →
    (s.alive = true ∨ s.pXfer ≠ none ∨ s.cXfer ≠ none →
      ∃ t, exec (.init count size) s = .next t ∧ AnsweredOnly s t .K { status := .invalidState, value := 0 }) ∧
    (s.pXfer ≠ none ∨ s.cXfer ≠ none →
      ∃ t, exec .destroy s = .next t ∧ AnsweredOnly s t .K { status := .invalidState, value := 0 })

/-- R117: DESTROY on port K answers InvalidState and changes nothing while port P or port C is in COPY. Otherwise it answers
OK: on a live buffer it clears `ALIVE` and both cursors and leaves `CAPACITY`, `MASK`, `ELEMENT_SIZE` and every cell as they
were (R41), and on a buffer that is not alive it changes nothing (R118). -/
def Obligations.DestroyResult : Prop :=
  ∀ s : State, s.port = .K →
    ∃ t, exec .destroy s = .next t ∧
      (s.pXfer ≠ none ∨ s.cXfer ≠ none → AnsweredOnly s t .K { status := .invalidState, value := 0 }) ∧
      (s.pXfer = none → s.cXfer = none → s.alive = true →
        t.alive = false ∧ t.writeCursor = 0 ∧ t.readCursor = 0 ∧
        t.capacity = s.capacity ∧ t.mask = s.mask ∧ t.elementSize = s.elementSize ∧ SameStorage s t ∧
        OneAnswer s t .K { status := .ok, value := 0 } ∧ SameTransfers s t ∧ SameData s t ∧ SameBook s t) ∧
      (s.pXfer = none → s.cXfer = none → s.alive = false → AnsweredOnly s t .K { status := .ok, value := 0 })

/-- R186: with `ALIVE = 0` each of WRITE, READ, PEEK on its own port and of the five queries on any port answers InvalidState
and does nothing. -/
def Obligations.DeadBufferAnswersInvalidState : Prop :=
  ∀ (s : State) (i : Instr) (len : Word), s.alive = false →
    (i = .write len ∧ s.port = .P) ∨ (i = .read len ∧ s.port = .C) ∨ (i = .peek len ∧ s.port = .C) ∨
    i = .capacity ∨ i = .available ∨ i = .unused ∨ i = .isEmpty ∨ i = .isFull →
    ∃ t, exec i s = .next t ∧ AnsweredOnly s t s.port { status := .invalidState, value := 0 }

/-! ### Queries and the status generator (42_occupancy.md) -/

/-- R160, R162, R164, R166, R168: in every state, on whichever port, each query changes nothing and gives one response: on a
live buffer OK with its value of the registers at that instant, else InvalidState. ISFULL is `avail > MASK` (R169). -/
def Obligations.QueriesAnswerFromTheRegisters : Prop :=
  ∀ s : State,
    let answers (i : Instr) (value : Word) : Prop :=
      ∃ t, exec i s = .next t ∧
        (s.alive = true → AnsweredOnly s t s.port { status := .ok, value := value }) ∧
        (s.alive = false → AnsweredOnly s t s.port { status := .invalidState, value := 0 })
    answers .capacity s.capacity ∧
    answers .available (s.writeCursor - s.readCursor) ∧
    answers .unused (s.capacity - (s.writeCursor - s.readCursor)) ∧
    answers .isEmpty (if s.writeCursor = s.readCursor then 1 else 0) ∧
    answers .isFull (if s.mask.toNat < (s.writeCursor - s.readCursor).toNat then 1 else 0)

/-- R36: on a live buffer that meets the invariant, `FULL` in its normative form `avail > MASK` (R169) holds exactly when the
cursors are `CAPACITY` apart, `EMPTY` exactly when they are equal, and the two never hold together. At any one instant
`avail + unused = CAPACITY` (R165). -/
def Obligations.FullAndEmptyAreDistinguishable : Prop :=
  ∀ s : State, LiveInv s →
    (s.full = true ↔ s.writeCursor - s.readCursor = s.capacity) ∧
    (s.empty = true ↔ s.writeCursor = s.readCursor) ∧
    ¬ (s.full = true ∧ s.empty = true) ∧
    s.available.toNat + s.unusedBytes.toNat = s.capacity.toNat

/-- R172: the six status outputs are functions of the registers alone; the five besides `st_alive` have these values while
`ALIVE = 1`. -/
def Obligations.StatusOutputs : Prop :=
  ∀ s : State, s.stAlive = s.alive ∧
    (s.alive = true →
      s.stCapacity = some s.capacity ∧ s.stAvailable = some (s.writeCursor - s.readCursor) ∧
      s.stUnused = some (s.capacity - (s.writeCursor - s.readCursor)) ∧
      s.stEmpty = some (decide (s.writeCursor = s.readCursor)) ∧
      s.stFull = some (decide (s.mask.toNat < (s.writeCursor - s.readCursor).toNat)))

/-- R171 with R68: an answer the owner of a quantity has seen can only have grown. A step of port C never lowers what port P
sees as unused, and a step of port P never lowers what port C sees as available. -/
def Obligations.TheOwnersQuantityOnlyGrows : Prop :=
  ∀ s t : State, Invariant s → step s = .next t →
    (s.turn = .port .C → s.unusedBytes ≤ t.unusedBytes) ∧
    (s.turn = .port .P → s.available ≤ t.available)

/-! ### Arithmetic and the offset mapper (00_scope.md, 20_memory.md) -/

/-- R15 and R16: `ispow2` and `npot` are what their rules say, for every number. -/
def Obligations.PowersOfTwo : Prop :=
  (∀ x, isPow2 x = true ↔ ∃ k, x = 2 ^ k) ∧
  (∀ x, 1 ≤ x → (∃ k, npot x = 2 ^ k) ∧ x ≤ npot x ∧ ∀ j, x ≤ 2 ^ j → npot x ≤ 2 ^ j)

/-- R52: for `CAPACITY = 2^n`, the offset of logical position `c +_W k` is `((c & MASK) + k) mod CAPACITY`, below `CAPACITY`,
so cursor overflow at `2^W` causes no jump. -/
def Obligations.OffsetMapper : Prop :=
  ∀ (n : Nat) (mask c k : Word), n ≤ 31 → mask.toNat = 2 ^ n - 1 →
    (off mask c k).toNat = ((c &&& mask).toNat + k.toNat) % 2 ^ n ∧ (off mask c k).toNat < 2 ^ n

/-- R53: the two-chunk split names the same cells as R52: with `o = c & MASK`, `n1` and `n2`, index `k` is at `o + k` in
chunk 1 and at `k - n1` in chunk 2; the chunks add up, do not overlap (`n2 <= o`), and chunk 1 is not empty when there is
anything to copy (R153). -/
def Obligations.TwoChunkSplit : Prop :=
  ∀ (n : Nat) (capacity mask c eff : Word), n ≤ 31 → capacity.toNat = 2 ^ n → mask.toNat = 2 ^ n - 1 →
    eff ≤ capacity →
    let o  := (c &&& mask).toNat
    let n1 := (chunk1 capacity mask c eff).toNat
    let n2 := (chunk2 capacity mask c eff).toNat
    n1 = min eff.toNat (capacity.toNat - o) ∧ n1 + n2 = eff.toNat ∧ n2 ≤ o ∧ (0 < eff → 0 < n1) ∧
    (∀ k, k < n1 → (off mask c (BitVec.ofNat 32 k)).toNat = o + k) ∧
    (∀ k, n1 ≤ k → k < eff.toNat → (off mask c (BitVec.ofNat 32 k)).toNat = k - n1)

/-! ### Transfers (20_memory.md, 41_transfer.md) -/

/-- R131 (and the SAMPLE step of R61): WRITE on port P of a live buffer within its bound moves `min(len, free)` bytes. When
that is 0 (`len = 0` or the buffer is full) it answers OK, 0 at once and does nothing; otherwise it fixes `p_base` and
`p_eff`, with no register, cell or channel changed. -/
def Obligations.WriteSample : Prop :=
  ∀ (s : State) (len : Word), s.port = .P → s.alive = true → s.pXfer = none → s.available ≤ s.capacity →
    let free := s.capacity.toNat - (s.writeCursor - s.readCursor).toNat
    let eff  := min len.toNat free
    ∃ t, exec (.write len) s = .next t ∧
      (eff = 0 ↔ len = 0 ∨ s.available = s.capacity) ∧
      (eff = 0 → AnsweredOnly s t .P { status := .ok, value := 0 }) ∧
      (eff ≠ 0 →
        t.pXfer = some { base := s.writeCursor, eff := BitVec.ofNat 32 eff, i := 0 } ∧ t.cXfer = s.cXfer ∧
        SameRegisters s t ∧ SameStorage s t ∧ SameChannels s t ∧ SameData s t ∧ SameBook s t)

/-- R137 and R143 (and the SAMPLE step of R62): READ and PEEK on port C of a live buffer move `min(len, available)` bytes,
clamped without any sign. When that is 0 they answer OK, 0 at once and do nothing; otherwise they fix `c_kind`, `c_base` and
`c_eff`, with no register, cell or channel changed. -/
def Obligations.ReadAndPeekSample : Prop :=
  ∀ (s : State) (len : Word) (i : Instr) (kind : ReadKind),
    (i = .read len ∧ kind = .read) ∨ (i = .peek len ∧ kind = .peek) →
    s.port = .C → s.alive = true → s.cXfer = none →
    let eff := min len.toNat (s.writeCursor - s.readCursor).toNat
    ∃ t, exec i s = .next t ∧
      (eff = 0 ↔ len = 0 ∨ s.writeCursor = s.readCursor) ∧
      (eff = 0 → AnsweredOnly s t .C { status := .ok, value := 0 }) ∧
      (eff ≠ 0 →
        t.cXfer = some { kind := kind, base := s.readCursor, eff := BitVec.ofNat 32 eff, i := 0 } ∧ t.pXfer = s.pXfer ∧
        SameRegisters s t ∧ SameStorage s t ∧ SameChannels s t ∧ SameData s t ∧ SameBook s t)

/-- The P.STORE step of R61 with its frame (R132): byte `p_i` of the source goes to the cell at
`(p_base + p_i) mod CAPACITY`, every other cell reads as before, and nothing changes but the index. -/
def Obligations.StoreStep : Prop :=
  ∀ (s : State) (x : WriteXfer), LiveInv s → x.i < x.eff →
    let address := (x.base.toNat + x.i.toNat) % s.capacity.toNat
    ∃ t, pCopyStep x s = .next t ∧
      t.byteAt address = s.srcByte x.i.toNat ∧ (∀ a, a ≠ address → t.byteAt a = s.byteAt a) ∧
      t.srcIdx = s.srcIdx ++ [x.i] ∧ t.pXfer = some { x with i := x.i + 1 } ∧
      SameRegisters s t ∧ t.cXfer = s.cXfer ∧ SameChannels s t ∧ (∀ k, t.srcByte k = s.srcByte k) ∧
      t.dst = s.dst ∧ SameBook s t

/-- R133 and R134 (the P.PUBLISH step of R61): after the last store the write cursor advances by `p_eff` modulo `2^W` and is
not clamped, the response is OK with the count, port P is IDLE, and nothing else changes; the read cursor never does. -/
def Obligations.PublishStepOfWrite : Prop :=
  ∀ (s : State) (x : WriteXfer), x.i = x.eff →
    ∃ t, pCopyStep x s = .next t ∧
      t.writeCursor.toNat = (x.base.toNat + x.eff.toNat) % 2 ^ 32 ∧ t.pXfer = none ∧
      OneAnswer s t .P { status := .ok, value := x.eff } ∧
      t.readCursor = s.readCursor ∧ t.alive = s.alive ∧ t.capacity = s.capacity ∧ t.mask = s.mask ∧
      t.elementSize = s.elementSize ∧ t.cXfer = s.cXfer ∧ SameStorage s t ∧ SameData s t ∧ SameBook s t

/-- The C.LOAD step of R62 with its frame (R138): the byte at `(c_base + c_i) mod CAPACITY` is delivered at index `c_i`, and
nothing changes but the index; no cell, no register. -/
def Obligations.LoadStep : Prop :=
  ∀ (s : State) (y : ReadXfer), LiveInv s → y.i < y.eff →
    ∃ t, cCopyStep y s = .next t ∧
      t.dst = s.dst ++ [(y.i, s.byteAt ((y.base.toNat + y.i.toNat) % s.capacity.toNat))] ∧
      t.cXfer = some { y with i := y.i + 1 } ∧
      SameRegisters s t ∧ SameStorage s t ∧ t.pXfer = s.pXfer ∧ SameChannels s t ∧ (∀ k, t.srcByte k = s.srcByte k) ∧
      t.srcIdx = s.srcIdx ∧ SameBook s t

/-- R139, R140, R144 (the C.PUBLISH step of R62): after the last load a READ advances the read cursor by `c_eff` modulo `2^W`
and answers OK with the count; a PEEK writes no register and answers OK, 0; port C is IDLE, and nothing else changes. -/
def Obligations.PublishStepOfReadAndPeek : Prop :=
  ∀ (s : State) (y : ReadXfer), y.i = y.eff →
    ∃ t, cCopyStep y s = .next t ∧ t.cXfer = none ∧
      (y.kind = .read →
        t.readCursor.toNat = (y.base.toNat + y.eff.toNat) % 2 ^ 32 ∧
        OneAnswer s t .C { status := .ok, value := y.eff }) ∧
      (y.kind = .peek → t.readCursor = s.readCursor ∧ OneAnswer s t .C { status := .ok, value := 0 }) ∧
      t.writeCursor = s.writeCursor ∧ t.alive = s.alive ∧ t.capacity = s.capacity ∧ t.mask = s.mask ∧
      t.elementSize = s.elementSize ∧ t.pXfer = s.pXfer ∧ SameStorage s t ∧ SameData s t ∧ SameBook s t

/-- Where a meaning stops (log 11): a WRITE, READ or PEEK on its own port of a live buffer while that port is in COPY, where R61
and R62 have no SAMPLE step, is the fault `sampleWhileBusy`. No command faults otherwise, and none is ever refused, so in
every other state every command gives a next state. -/
def Obligations.CommandsStopOnlyOnABusyPort : Prop :=
  ∀ (i : Instr) (s : State),
    let busy : Prop := s.alive = true ∧
      ((∃ len, i = .write len) ∧ s.port = .P ∧ s.pXfer ≠ none ∨
        (∃ len, i = .read len ∨ i = .peek len) ∧ s.port = .C ∧ s.cXfer ≠ none)
    (busy → exec i s = .fault .sampleWhileBusy) ∧ (¬ busy → ∃ t, exec i s = .next t)

/-- Where a copy step stops (logs 12 and 13): past its effective length, where R61 and R62 enable no step, and at an offset that
does not exist (R14, R58). In every other state it gives a next state. -/
def Obligations.CopyStepsStopOnlyOutOfRange : Prop :=
  ∀ (s : State) (x : WriteXfer) (y : ReadXfer),
    (x.eff < x.i → pCopyStep x s = .fault .indexPastEnd) ∧
    (x.i < x.eff → s.capacity ≤ off s.mask x.base x.i → pCopyStep x s = .fault .offsetOutOfRange) ∧
    (x.i ≤ x.eff → (x.i < x.eff → off s.mask x.base x.i < s.capacity) → ∃ t, pCopyStep x s = .next t) ∧
    (y.eff < y.i → cCopyStep y s = .fault .indexPastEnd) ∧
    (y.i < y.eff → s.capacity ≤ off s.mask y.base y.i → cCopyStep y s = .fault .offsetOutOfRange) ∧
    (y.i ≤ y.eff → (y.i < y.eff → off s.mask y.base y.i < s.capacity) → ∃ t, cCopyStep y s = .next t)

/-- R130: WRITE, run from its SAMPLE to its response with no other port's step between, is the function of R130 in its
two-chunk form: the bytes stored, the source indices read in order and none at or past `eff`, the cursor advanced, the count
returned, and nothing else changed. -/
def Obligations.WriteRunsAsItsFunction : Prop :=
  ∀ (s : State) (len : Word), Invariant s → s.port = .P → s.alive = true → s.pXfer = none →
    ∃ t, exec (.write len) s = .next t ∧
      portTurns .P (if s.writeEff len = 0 then 0 else (s.writeEff len).toNat + 1) t = .next (s.wholeWrite len)

/-- R136 and R142: READ and PEEK, run from SAMPLE to response with no other port's step between, are the functions of R136
and R142 in their two-chunk form. -/
def Obligations.ReadAndPeekRunAsTheirFunctions : Prop :=
  ∀ (s : State) (len : Word), Invariant s → s.port = .C → s.alive = true → s.cXfer = none →
    (∃ t, exec (.read len) s = .next t ∧
      portTurns .C (if s.readEff len = 0 then 0 else (s.readEff len).toNat + 1) t = .next (s.wholeRead len)) ∧
    (∃ t, exec (.peek len) s = .next t ∧
      portTurns .C (if s.readEff len = 0 then 0 else (s.readEff len).toNat + 1) t = .next (s.wholePeek len))

/-- R132 with its frame: WRITE as a function puts byte `k` of the source, `k < eff`, at offset `(wc + k) mod CAPACITY`, and
every other cell reads as before; it reads the source at the indices below `eff`, in order, and at no other; no cell of the
readable window is among those stored to. -/
def Obligations.WriteStoresEveryByteInItsPlace : Prop :=
  ∀ (s : State) (len : Word), LiveInv s →
    let t   := s.wholeWrite len
    let eff := (s.writeEff len).toNat
    (∀ k, k < eff → t.byteAt ((s.writeCursor.toNat + k) % s.capacity.toNat) = s.srcByte k) ∧
    (∀ a, (∀ k, k < eff → a ≠ (s.writeCursor.toNat + k) % s.capacity.toNat) → t.byteAt a = s.byteAt a) ∧
    t.srcIdx = s.srcIdx ++ (List.range eff).map (BitVec.ofNat 32) ∧
    (∀ j k, j < s.available.toNat → k < eff →
      (s.readCursor.toNat + j) % s.capacity.toNat ≠ (s.writeCursor.toNat + k) % s.capacity.toNat)

/-- R37 with R138 and R145: as functions on the logical contents, WRITE appends the admitted source bytes at the tail, READ
delivers and removes the oldest bytes, PEEK delivers the same bytes and removes none. -/
def Obligations.TransfersActOnTheContents : Prop :=
  ∀ (s : State) (len : Word), LiveInv s →
    (s.wholeWrite len).contents = s.contents ++ (List.range (s.writeEff len).toNat).map s.srcByte ∧
    (s.wholeRead len).contents = s.contents.drop (s.readEff len).toNat ∧
    (s.wholePeek len).contents = s.contents ∧
    (s.wholeRead len).dst.map Prod.snd = s.dst.map Prod.snd ++ s.contents.take (s.readEff len).toNat ∧
    (s.wholePeek len).dst = (s.wholeRead len).dst

/-- R148: a WRITE of `S`, of length at most `Unused(b)`, and then a READ of the same length: on an empty buffer the READ
delivers exactly `S`, wherever the cursors sit; on a buffer that holds `m` bytes it delivers those first, and `S` is what a
READ delivers after those `m` have been read. -/
def Obligations.RoundTrip : Prop :=
  ∀ (s : State) (len : Word), LiveInv s → len ≤ s.unusedBytes →
    let S := (List.range len.toNat).map s.srcByte
    let w := s.wholeWrite len
    (s.empty = true → (w.wholeRead len).dst.map Prod.snd = s.dst.map Prod.snd ++ S) ∧
    (w.wholeRead len).dst.map Prod.snd = s.dst.map Prod.snd ++ (s.contents ++ S).take len.toNat ∧
    ((w.wholeRead s.available).wholeRead len).dst.map Prod.snd = s.dst.map Prod.snd ++ s.contents ++ S

/-- R150: any number of PEEKs with the same length deliver the same bytes each time, the oldest ones, and never change
Available; after a WRITE published in between, a PEEK delivers at least those bytes, as its prefix. -/
def Obligations.PeekIsIdempotent : Prop :=
  ∀ (s : State) (len more : Word) (n : Nat), LiveInv s →
    let p := s.contents.take (s.readEff len).toNat
    let t := Nat.repeat (fun u => u.wholePeek len) n s
    t.dst.map Prod.snd = s.dst.map Prod.snd ++ (List.replicate n p).flatten ∧ t.available = s.available ∧
    ∃ further, ((t.wholeWrite more).wholePeek len).dst.map Prod.snd = t.dst.map Prod.snd ++ p ++ further

/-- R147 and R149: a WRITE of at least `Unused(b)` returns exactly `Unused(b)` and leaves the buffer full, after which a WRITE
of any length returns 0; a READ of at least `Available(b)` returns exactly that and leaves the buffer empty, after which a
READ returns 0. -/
def Obligations.FullAndEmptyBoundary : Prop :=
  ∀ (s : State) (len again : Word), LiveInv s →
    (s.unusedBytes ≤ len →
      s.writeEff len = s.unusedBytes ∧ (s.wholeWrite len).full = true ∧ (s.wholeWrite len).writeEff again = 0) ∧
    (s.available ≤ len →
      s.readEff len = s.available ∧ (s.wholeRead len).empty = true ∧ (s.wholeRead len).readEff again = 0)

/-! ### The whole machine -/

/-- The invariant holds after reset, for every build that R9 and R10 allow, and for the build of `State.reset`. -/
def Obligations.ResetMeetsTheInvariant : Prop :=
  (∀ b : Build, b.Valid → Invariant (State.resetOf b)) ∧ Invariant State.reset

/-- R35 (with R23, R34, R32, R33, R66 and R29): every step of every command, under every interleaving of the ports and the
reset input, keeps the invariant, of which `(WRITE_CURSOR -_W READ_CURSOR) <= CAPACITY` is a part. -/
def Obligations.EveryStepKeepsTheInvariant : Prop :=
  ∀ s t : State, Invariant s → step s = .next t → Invariant t

/-- "There are no fatal conditions": from a state that meets the invariant no step faults or is refused, whoever steps and
whatever word is offered; each turn is always enabled (R215). -/
def Obligations.NoStepStops : Prop :=
  ∀ s : State, Invariant s → ∃ t, step s = .next t

/-- R37 under every interleaving: only a WRITE's PUBLISH appends to the logical contents (its source bytes, in order), only a
READ's PUBLISH removes from them (the oldest, which are the bytes just delivered), no other step of P or C changes them, and
a step of K or the reset input leaves them as they are or empty. -/
def Obligations.StepsActOnTheContents : Prop :=
  ∀ s t : State, Invariant s → step s = .next t →
    (∀ x, s.turn = .port .P → s.pXfer = some x → x.i = x.eff →
      t.contents = s.contents ++ (List.range x.eff.toNat).map s.srcByte) ∧
    (∀ y, s.turn = .port .C → s.cXfer = some y → y.i = y.eff → y.kind = .read →
      t.contents = s.contents.drop y.eff.toNat ∧
      (s.dst.drop (s.dst.length - y.eff.toNat)).map Prod.snd = s.contents.take y.eff.toNat) ∧
    (s.turn = .port .P → (∀ x, s.pXfer = some x → x.i ≠ x.eff) → t.contents = s.contents) ∧
    (s.turn = .port .C → (∀ y, s.cXfer = some y → y.i ≠ y.eff ∨ y.kind = .peek) → t.contents = s.contents) ∧
    (s.turn = .port .K → t.contents = s.contents ∨ t.contents = []) ∧
    (s.turn = .reset → t.contents = [])

/-- The block is a first-in first-out queue under every interleaving (R51, R37, R146): over any run in which the buffer stays
alive, what it held followed by what entered is what left followed by what it holds. -/
def Obligations.TheStreamIsFirstInFirstOut : Prop :=
  ∀ (n : Nat) (s t : State) (ins outs : List Byte), Invariant s → s.alive = true →
    streamRun n s = some (t, ins, outs) → s.contents ++ ins = outs ++ t.contents

/-- Every accepted command gets exactly one response on its port (R81): a step of a port never changes the number of commands
unanswered plus responses given, on any port, in any state. -/
def Obligations.OneResponseForEachCommand : Prop :=
  ∀ s t : State, step s = .next t → s.turn ≠ .reset →
    ∀ q, t.unanswered q + (t.chan q).rsp.length = s.unanswered q + (s.chan q).rsp.length

/-- Every WRITE reaches its response under every interleaving (R215): from a state that meets the invariant with a WRITE in
COPY, whatever the other ports do in between, once port P has had `p_eff - p_i + 1` turns the WRITE has answered OK with its
count and port P is IDLE. -/
def Obligations.WriteReachesItsResponse : Prop :=
  ∀ (s : State) (x : WriteXfer) (ts rest : List Turn), Invariant s → s.pXfer = some x → s.turns = ts ++ rest →
    Turn.reset ∉ ts → ts.count (.port .P) = x.eff.toNat - x.i.toNat + 1 →
    ∃ t, Sys2Proof.core.run ts.length s = .next t ∧ t.pXfer = none ∧
      t.portP.rsp = s.portP.rsp ++ [{ status := .ok, value := x.eff }]

/-- Every READ and PEEK reaches its response under every interleaving (R215), the READ with its count and the PEEK with 0,
and by then every byte from the `c_i`-th on has been delivered, unchanged by what the producer did meanwhile (R67). -/
def Obligations.ReadAndPeekReachTheirResponse : Prop :=
  ∀ (s : State) (y : ReadXfer) (ts rest : List Turn), Invariant s → s.cXfer = some y → s.turns = ts ++ rest →
    Turn.reset ∉ ts → ts.count (.port .C) = y.eff.toNat - y.i.toNat + 1 →
    ∃ t, Sys2Proof.core.run ts.length s = .next t ∧ t.cXfer = none ∧
      t.portC.rsp = s.portC.rsp ++ [{ status := .ok, value := if y.kind = .read then y.eff else 0 }] ∧
      t.dst = s.dst ++ (s.deliveries y.base y.eff.toNat).drop y.i.toNat

/-- R66 (a): no cell is ever the target of a store and of a load of two commands in flight at once. -/
def Obligations.NoCellIsStoredAndLoaded : Prop :=
  ∀ (s : State) (x : WriteXfer) (y : ReadXfer), Invariant s → s.pXfer = some x → s.cXfer = some y →
    ∀ j k : Word, j < x.eff → k < y.eff → off s.mask x.base j ≠ off s.mask y.base k

/-- R66 (b): a STORE and a LOAD of two commands in flight commute: in either order the two steps give the same state. -/
def Obligations.StoreAndLoadCommute : Prop :=
  ∀ (s : State) (x : WriteXfer) (y : ReadXfer) (rest : List Turn), Invariant s → s.pXfer = some x → s.cXfer = some y →
    x.i < x.eff → y.i < y.eff →
    ∃ t, Sys2Proof.core.run 2 { s with turns := .port .P :: .port .C :: rest } = .next t ∧
      Sys2Proof.core.run 2 { s with turns := .port .C :: .port .P :: rest } = .next t

/-- R24 and R25 with R26: each cursor has one steady-state writer. The write cursor changes only at a WRITE's PUBLISH on port
P, and the read cursor only at a READ's PUBLISH on port C, or both go to 0 in a step of port K or the reset input. -/
def Obligations.EachCursorHasOneWriter : Prop :=
  ∀ s t : State, step s = .next t →
    (t.writeCursor ≠ s.writeCursor →
      (∃ x, s.turn = .port .P ∧ s.pXfer = some x ∧ x.i = x.eff ∧ t.writeCursor = x.base + x.eff) ∨
      ((s.turn = .port .K ∨ s.turn = .reset) ∧ t.writeCursor = 0 ∧ t.readCursor = 0)) ∧
    (t.readCursor ≠ s.readCursor →
      (∃ y, s.turn = .port .C ∧ s.cXfer = some y ∧ y.i = y.eff ∧ y.kind = .read ∧ t.readCursor = y.base + y.eff) ∨
      ((s.turn = .port .K ∨ s.turn = .reset) ∧ t.writeCursor = 0 ∧ t.readCursor = 0))

/-- R21 with R26 and R42: `CAPACITY`, `MASK` and `ELEMENT_SIZE` are written only by an INIT that succeeds, in a step of port K
that turns `ALIVE` from 0 to 1, or cleared by the reset input; storage changes only there and in port P's COPY; the build
parameters never change. -/
def Obligations.OnlyInitConfiguresTheBuffer : Prop :=
  ∀ s t : State, step s = .next t →
    t.build = s.build ∧
    ((t.capacity ≠ s.capacity ∨ t.mask ≠ s.mask ∨ t.elementSize ≠ s.elementSize) →
      s.turn = .reset ∨ (s.turn = .port .K ∧ s.alive = false ∧ t.alive = true)) ∧
    (t.storage ≠ s.storage →
      (s.turn = .port .K ∧ s.alive = false ∧ t.alive = true) ∨ (s.turn = .port .P ∧ s.pXfer ≠ none))

/-- R180: a command word answered with a status other than OK has changed nothing but for that one response, and the
response's value is 0. It holds of every command word in every state in which its port is not busy. -/
def Obligations.ErrorsChangeNothing : Prop :=
  ∀ (w : CmdWord) (s t : State) (r : Response),
    (s.port = .P → s.pXfer = none) → (s.port = .C → s.cXfer = none) → runCommand w s = .next t →
    (t.chan s.port).rsp = (s.chan s.port).rsp ++ [r] → r.status ≠ .ok →
    r.value = 0 ∧ AnsweredOnly s t s.port r

/-- No port's step touches another port's transfer or data (R66, R67, R191): a step of K or C leaves port P's transfer, its
source and its requests alone, and a step of K or P leaves port C's transfer and its destination alone. -/
def Obligations.PortsDoNotDisturbEachOther : Prop :=
  ∀ (s t : State) (q : Port), step s = .next t → s.turn = .port q →
    (q ≠ .P → t.pXfer = s.pXfer ∧ t.srcIdx = s.srcIdx ∧ (∀ k, t.srcByte k = s.srcByte k) ∧ t.portP = s.portP) ∧
    (q ≠ .C → t.cXfer = s.cXfer ∧ t.dst = s.dst ∧ t.portC = s.portC) ∧
    (q ≠ .K → t.portK = s.portK ∧ t.alive = s.alive)

/-- The frame of the commands that only SAMPLE (WRITE, READ, PEEK) and of the five queries: whatever next state they give, no
register, no cell, no source or destination byte, no build parameter, and no other port's channel is changed. -/
def Obligations.SampleAndQueryFrame : Prop :=
  ∀ (i : Instr) (s t : State) (len : Word),
    i = .write len ∨ i = .read len ∨ i = .peek len ∨
      i = .capacity ∨ i = .available ∨ i = .unused ∨ i = .isEmpty ∨ i = .isFull →
    exec i s = .next t →
    SameRegisters s t ∧ SameStorage s t ∧ SameData s t ∧ SameBook s t ∧
    (∀ p, p ≠ s.port → t.chan p = s.chan p) ∧ (t.chan s.port).cmds = (s.chan s.port).cmds ∧
    ((∀ n, i ≠ .write n) → t.pXfer = s.pXfer) ∧ ((∀ n, i ≠ .read n ∧ i ≠ .peek n) → t.cXfer = s.cXfer)

/-- The frame of the lifecycle commands (R26): whatever next state INIT and DESTROY give, both transfers, the source, the
destination, the build parameters, every other port's channels and the command words waiting on the executing port are
unchanged (the executing port's responses grow by the command's own); DESTROY changes no cell and none of `CAPACITY`, `MASK`,
`ELEMENT_SIZE`. -/
def Obligations.LifecycleFrame : Prop :=
  ∀ (i : Instr) (s t : State) (count size : Word), i = .init count size ∨ i = .destroy → exec i s = .next t →
    SameTransfers s t ∧ SameData s t ∧ SameBook s t ∧
    (∀ p, p ≠ s.port → t.chan p = s.chan p) ∧ (t.chan s.port).cmds = (s.chan s.port).cmds ∧
    (i = .destroy → SameStorage s t ∧ t.capacity = s.capacity ∧ t.mask = s.mask ∧ t.elementSize = s.elementSize)
end

