-- ==== Sys2Proof/Laws/Decode.lean ====
section
/-! SUPPORT. The laws of the command word's three fields: each as a natural number, and read back from a packed word (R83). -/

namespace Sys2Proof

theorem opField_toNat (w : CmdWord) : (opField w).toNat = w.toNat / 2 ^ 64 := by
  have := w.isLt
  simp only [opField, BitVec.extractLsb'_toNat, Nat.shiftRight_eq_div_pow]
  omega

theorem arg1Field_toNat (w : CmdWord) : (arg1Field w).toNat = w.toNat / 2 ^ 32 % 2 ^ 32 := by
  simp only [arg1Field, BitVec.extractLsb'_toNat, Nat.shiftRight_eq_div_pow]

theorem arg0Field_toNat (w : CmdWord) : (arg0Field w).toNat = w.toNat % 2 ^ 32 := by
  simp only [arg0Field, BitVec.extractLsb'_toNat, Nat.shiftRight_zero]

/-- Two numbers in disjoint bits are joined by adding them. -/
theorem shift_or_eq_add {n a b : Nat} (h : b < 2 ^ n) : a <<< n ||| b = a * 2 ^ n + b := by
  rw [← Nat.shiftLeft_add_eq_or_of_lt h, Nat.shiftLeft_eq]

/-- The packed word as a number: the fields stand side by side. -/
theorem packCmd_toNat (op : BitVec 8) (arg1 arg0 : Word) :
    (packCmd op arg1 arg0).toNat = op.toNat * 2 ^ 64 + (arg1.toNat * 2 ^ 32 + arg0.toNat) := by
  have ho := op.isLt
  have h1 := arg1.isLt
  have h0 := arg0.isLt
  have e1 : arg1.toNat <<< 32 ||| arg0.toNat = arg1.toNat * 2 ^ 32 + arg0.toNat := shift_or_eq_add h0
  have eo : op.toNat <<< 64 ||| (arg1.toNat * 2 ^ 32 + arg0.toNat) = op.toNat * 2 ^ 64 + (arg1.toNat * 2 ^ 32 + arg0.toNat) :=
    shift_or_eq_add (by omega)
  have so : op.toNat <<< 64 = op.toNat * 2 ^ 64 := Nat.shiftLeft_eq _ _
  have s1 : arg1.toNat <<< 32 = arg1.toNat * 2 ^ 32 := Nat.shiftLeft_eq _ _
  simp only [packCmd, BitVec.toNat_or, BitVec.toNat_shiftLeft, BitVec.toNat_setWidth]
  rw [Nat.mod_eq_of_lt (a := op.toNat) (by omega), Nat.mod_eq_of_lt (a := arg1.toNat) (by omega),
    Nat.mod_eq_of_lt (a := arg0.toNat) (by omega), Nat.mod_eq_of_lt (a := op.toNat <<< 64) (by omega),
    Nat.mod_eq_of_lt (a := arg1.toNat <<< 32) (by omega), Nat.or_assoc, e1, eo]

@[simp] theorem opField_packCmd (op : BitVec 8) (arg1 arg0 : Word) : opField (packCmd op arg1 arg0) = op := by
  have h1 := arg1.isLt
  have h0 := arg0.isLt
  apply BitVec.eq_of_toNat_eq
  rw [opField_toNat, packCmd_toNat]
  omega

@[simp] theorem arg1Field_packCmd (op : BitVec 8) (arg1 arg0 : Word) : arg1Field (packCmd op arg1 arg0) = arg1 := by
  have h1 := arg1.isLt
  have h0 := arg0.isLt
  apply BitVec.eq_of_toNat_eq
  rw [arg1Field_toNat, packCmd_toNat]
  omega

@[simp] theorem arg0Field_packCmd (op : BitVec 8) (arg1 arg0 : Word) : arg0Field (packCmd op arg1 arg0) = arg0 := by
  have h0 := arg0.isLt
  apply BitVec.eq_of_toNat_eq
  rw [arg0Field_toNat, packCmd_toNat]
  omega

end Sys2Proof
end

