-- ==== Sys2Proof/Laws/Memory.lean ====
section
/-! SUPPORT. The laws of the storage cells: read after write, and the canonical form is kept. -/

namespace Sys2Proof.Machine

@[simp] theorem Memory.load?_nil (a : Nat) : Memory.load? [] a = none := rfl

@[simp] theorem Memory.load?_store_same (m : Memory) (a : Nat) (v : Byte) :
    Memory.load? (Memory.store m a v) a = some v := by
  induction m with
  | nil => simp [Memory.store, Memory.load?]
  | cons c m ih =>
    obtain ⟨b, w⟩ := c
    simp only [Memory.store]
    split
    · simp [Memory.load?]
    · split
      · simp [Memory.load?]
      · next hne => simp [Memory.load?, hne, ih]

theorem Memory.load?_store_of_ne (m : Memory) {a b : Nat} (h : b ≠ a) (v : Byte) :
    Memory.load? (Memory.store m a v) b = Memory.load? m b := by
  induction m with
  | nil => simp [Memory.store, Memory.load?, h]
  | cons c m ih =>
    obtain ⟨d, w⟩ := c
    simp only [Memory.store]
    split
    · simp [Memory.load?, h]
    · split
      · next hd => subst hd; simp [Memory.load?, h]
      · simp only [Memory.load?, ih]

theorem Memory.load?_store (m : Memory) (a b : Nat) (v : Byte) :
    Memory.load? (Memory.store m a v) b = if b = a then some v else Memory.load? m b := by
  split
  · next h => subst h; simp
  · next h => exact Memory.load?_store_of_ne m h v

/-- A store never unwrites a cell. -/
theorem Memory.isSome_load?_store (m : Memory) (a b : Nat) (v : Byte) (h : (Memory.load? m b).isSome) :
    (Memory.load? (Memory.store m a v) b).isSome := by
  rw [Memory.load?_store]
  split
  · rfl
  · exact h

theorem Memory.mem_keys_store (m : Memory) (a b : Nat) (v : Byte) :
    b ∈ (Memory.store m a v).map Prod.fst ↔ b = a ∨ b ∈ m.map Prod.fst := by
  induction m with
  | nil => simp [Memory.store]
  | cons c m ih =>
    obtain ⟨d, w⟩ := c
    simp only [Memory.store]
    split
    · simp
    · split
      · next hd => subst hd; simp
      · simp only [List.map_cons, List.mem_cons, ih]
        tauto

/-- Every store keeps the canonical form. -/
theorem Memory.store_wf (m : Memory) (a : Nat) (v : Byte) (h : Memory.wf m) : Memory.wf (Memory.store m a v) := by
  induction m with
  | nil => simp [Memory.wf, Memory.store]
  | cons c m ih =>
    obtain ⟨d, w⟩ := c
    rw [Memory.wf, List.map_cons, List.pairwise_cons] at h
    obtain ⟨hd, hm⟩ := h
    simp only [Memory.store]
    split
    · next hlt =>
      simp only [Memory.wf, List.map_cons, List.pairwise_cons, List.mem_cons]
      exact ⟨fun x hx => hx.elim (fun e => e ▸ hlt) (fun e => hlt.trans (hd x e)), hd, hm⟩
    · split
      · next heq => subst heq; simpa only [Memory.wf, List.map_cons, List.pairwise_cons] using ⟨hd, hm⟩
      · next hnlt hne =>
        simp only [Memory.wf, List.map_cons, List.pairwise_cons]
        refine ⟨fun x hx => ?_, ih hm⟩
        rcases (Memory.mem_keys_store m a x v).1 hx with rfl | hx
        · exact Nat.lt_of_le_of_ne (Nat.le_of_not_lt hnlt) (Ne.symm hne)
        · exact hd x hx

end Sys2Proof.Machine
end

