-- ==== Sys2Proof/Laws/Operands.lean ====
section
/-! SUPPORT. The arithmetic laws: `min`, powers of two, the offset mapper and the occupancy numbers, in natural numbers. -/

namespace Sys2Proof.Machine

theorem wmin_toNat (a b : Word) : (wmin a b).toNat = min a.toNat b.toNat := by
  unfold wmin
  split <;> rename_i h <;> rw [BitVec.le_def] at h <;> omega

/-- `ispow2` is what R15 says. -/
theorem isPow2_iff (x : Nat) : isPow2 x = true ↔ ∃ k, x = 2 ^ k := by
  simp only [isPow2, Bool.and_eq_true, bne_iff_ne, beq_iff_eq]
  constructor
  · rintro ⟨_, h⟩; exact ⟨_, h.symm⟩
  · rintro ⟨k, rfl⟩; simp [Nat.log2_two_pow]

/-- `npot` is a power of two, and at least its argument (R16). -/
theorem le_npot (x : Nat) : x ≤ npot x := by
  unfold npot
  split
  · assumption
  · have := Nat.lt_log2_self (n := x - 1); omega

theorem npot_pow2 (x : Nat) : ∃ k, npot x = 2 ^ k := by
  unfold npot
  split
  · exact ⟨0, rfl⟩
  · exact ⟨_, rfl⟩

/-- `npot` is the least such power of two (R16). -/
theorem npot_le {x j : Nat} (h : x ≤ 2 ^ j) : npot x ≤ 2 ^ j := by
  unfold npot
  split
  · exact Nat.one_le_two_pow
  · next hx =>
    refine Nat.pow_le_pow_right (by decide) ?_
    have : (x - 1).log2 < j := (Nat.log2_lt (by omega)).2 (by omega)
    omega

/-- A masked number is a remainder (R52). -/
theorem and_mask_toNat {mask : Word} {n : Nat} (hm : mask.toNat = 2 ^ n - 1) (c : Word) :
    (c &&& mask).toNat = c.toNat % 2 ^ n := by
  rw [BitVec.toNat_and, hm, Nat.and_two_pow_sub_one_eq_mod]

/-- The offset mapper in natural numbers (R52): cursor overflow at `2^W` does not disturb it. -/
theorem off_toNat {mask : Word} {n : Nat} (hn : n ≤ 32) (hm : mask.toNat = 2 ^ n - 1) (c k : Word) :
    (off mask c k).toNat = (c.toNat + k.toNat) % 2 ^ n := by
  rw [off, and_mask_toNat hm, BitVec.toNat_add]
  exact Nat.mod_mod_of_dvd _ (Nat.pow_dvd_pow 2 hn)

/-- Two indices less than a capacity apart never share a cell (R66). -/
theorem off_ne {mask : Word} {n : Nat} (hn : n ≤ 32) (hm : mask.toNat = 2 ^ n - 1) (c : Word) {j k : Nat}
    (hj : j < 2 ^ 32) (hk : k < 2 ^ 32) (hlt : j < k) (hcap : k < j + 2 ^ n) :
    (off mask c (BitVec.ofNat 32 j)).toNat ≠ (off mask c (BitVec.ofNat 32 k)).toNat := by
  rw [off_toNat hn hm, off_toNat hn hm, BitVec.toNat_ofNat, BitVec.toNat_ofNat, Nat.mod_eq_of_lt hj, Nat.mod_eq_of_lt hk]
  intro h
  have hd : 2 ^ n ∣ (c.toNat + k) - (c.toNat + j) := (Nat.modEq_iff_dvd' (by omega)).1 h
  have := Nat.le_of_dvd (by omega) hd
  omega

/-- A position counted from one cursor, counted from another (R37, R66). -/
theorem off_shift (mask c : Word) (d k : Nat) :
    off mask (c + BitVec.ofNat 32 d) (BitVec.ofNat 32 k) = off mask c (BitVec.ofNat 32 (d + k)) := by
  simp only [off, BitVec.ofNat_add]
  rw [BitVec.add_assoc]

/-- A live buffer's registers as natural numbers (R11, R21, R23). -/
theorem LiveInv.nat {s : State} (h : LiveInv s) :
    ∃ n, n ≤ 31 ∧ s.capacity.toNat = 2 ^ n ∧ s.mask.toNat = 2 ^ n - 1 := by
  obtain ⟨n, hn, hc⟩ := h.pow2
  refine ⟨n, hn, hc, ?_⟩
  have h1 : 1 ≤ 2 ^ n := Nat.one_le_two_pow
  have h2 : 2 ^ n < 2 ^ 32 := Nat.pow_lt_pow_right (by decide) (by omega)
  rw [h.maskEq, BitVec.toNat_sub_of_le (by rw [BitVec.le_def, hc]; exact h1), hc]
  rfl

/-- On a live buffer the offset mapper only names existing cells (R52, R59). -/
theorem LiveInv.off_lt {s : State} (h : LiveInv s) (c k : Word) : off s.mask c k < s.capacity := by
  obtain ⟨n, hn, hc, hm⟩ := h.nat
  rw [BitVec.lt_def, off_toNat (by omega) hm, hc]
  exact Nat.mod_lt _ (Nat.two_pow_pos n)

/-- On a live buffer `unused` does not borrow (R163). -/
theorem LiveInv.unused_toNat {s : State} (h : LiveInv s) :
    s.unusedBytes.toNat = s.capacity.toNat - s.available.toNat :=
  BitVec.toNat_sub_of_le h.bound

/-- Available after the write cursor advances (R133, R151): exact while the sum stays below `2^W`. -/
theorem available_advance_write (wc rc e : Word) (h : (avail wc rc).toNat + e.toNat < 2 ^ 32) :
    (avail (wc + e) rc).toNat = (avail wc rc).toNat + e.toNat := by
  have : avail (wc + e) rc = avail wc rc + e := by simp only [avail]; ring
  rw [this, BitVec.toNat_add_of_lt h]

/-- Available after the read cursor advances by no more than it (R139). -/
theorem available_advance_read (wc rc e : Word) (h : e ≤ avail wc rc) :
    (avail wc (rc + e)).toNat = (avail wc rc).toNat - e.toNat := by
  have : avail wc (rc + e) = avail wc rc - e := by simp only [avail]; ring
  rw [this, BitVec.toNat_sub_of_le h]

/-- WRITE's effective length fits in the free space (R131). -/
theorem LiveInv.writeEff_toNat {s : State} (h : LiveInv s) (len : Word) :
    (s.writeEff len).toNat = min len.toNat (s.capacity.toNat - s.available.toNat) := by
  rw [State.writeEff, wmin_toNat, h.unused_toNat]

/-- READ's and PEEK's effective length is within Available (R137). -/
theorem State.readEff_toNat (s : State) (len : Word) : (s.readEff len).toNat = min len.toNat s.available.toNat := by
  rw [State.readEff, wmin_toNat]

/-- The write cursor is Available past the read cursor (R161). -/
theorem State.writeCursor_eq (s : State) : s.writeCursor = s.readCursor + s.available := by
  simp [State.available, avail]

end Sys2Proof.Machine
end

