-- ==== Sys2Proof/Laws/State.lean ====
section
/-! SUPPORT. One lemma for each field and each update of the state, so that no proof unfolds a record update. -/

namespace Sys2Proof.Machine

variable (s : State) (q : Port) (c : Channel) (st : Status) (v : Word)

/-! ### `setChan` and `chan` -/

@[simp] theorem State.setChan_build : (s.setChan q c).build = s.build := by cases q <;> rfl
@[simp] theorem State.setChan_alive : (s.setChan q c).alive = s.alive := by cases q <;> rfl
@[simp] theorem State.setChan_capacity : (s.setChan q c).capacity = s.capacity := by cases q <;> rfl
@[simp] theorem State.setChan_elementSize : (s.setChan q c).elementSize = s.elementSize := by cases q <;> rfl
@[simp] theorem State.setChan_mask : (s.setChan q c).mask = s.mask := by cases q <;> rfl
@[simp] theorem State.setChan_writeCursor : (s.setChan q c).writeCursor = s.writeCursor := by cases q <;> rfl
@[simp] theorem State.setChan_readCursor : (s.setChan q c).readCursor = s.readCursor := by cases q <;> rfl
@[simp] theorem State.setChan_storage : (s.setChan q c).storage = s.storage := by cases q <;> rfl
@[simp] theorem State.setChan_pXfer : (s.setChan q c).pXfer = s.pXfer := by cases q <;> rfl
@[simp] theorem State.setChan_cXfer : (s.setChan q c).cXfer = s.cXfer := by cases q <;> rfl
@[simp] theorem State.setChan_src : (s.setChan q c).src = s.src := by cases q <;> rfl
@[simp] theorem State.setChan_srcIdx : (s.setChan q c).srcIdx = s.srcIdx := by cases q <;> rfl
@[simp] theorem State.setChan_dst : (s.setChan q c).dst = s.dst := by cases q <;> rfl
@[simp] theorem State.setChan_port : (s.setChan q c).port = s.port := by cases q <;> rfl
@[simp] theorem State.setChan_turns : (s.setChan q c).turns = s.turns := by cases q <;> rfl
@[simp] theorem State.setChan_tick : (s.setChan q c).tick = s.tick := by cases q <;> rfl
@[simp] theorem State.setChan_era : (s.setChan q c).era = s.era := by cases q <;> rfl
@[simp] theorem State.setChan_srcTag : (s.setChan q c).srcTag = s.srcTag := by cases q <;> rfl

@[simp] theorem State.chan_setChan_same : (s.setChan q c).chan q = c := by cases q <;> rfl
theorem State.chan_setChan_of_ne {q p : Port} (h : p ≠ q) : (s.setChan q c).chan p = s.chan p := by
  cases q <;> cases p <;> first | rfl | exact absurd rfl h
@[simp] theorem State.chan_K : s.chan .K = s.portK := rfl
@[simp] theorem State.chan_P : s.chan .P = s.portP := rfl
@[simp] theorem State.chan_C : s.chan .C = s.portC := rfl

/-! ### `respond` and `raise` -/

@[simp] theorem State.respond_build : (s.respond q st v).build = s.build := by cases q <;> rfl
@[simp] theorem State.respond_alive : (s.respond q st v).alive = s.alive := by cases q <;> rfl
@[simp] theorem State.respond_capacity : (s.respond q st v).capacity = s.capacity := by cases q <;> rfl
@[simp] theorem State.respond_elementSize : (s.respond q st v).elementSize = s.elementSize := by cases q <;> rfl
@[simp] theorem State.respond_mask : (s.respond q st v).mask = s.mask := by cases q <;> rfl
@[simp] theorem State.respond_writeCursor : (s.respond q st v).writeCursor = s.writeCursor := by cases q <;> rfl
@[simp] theorem State.respond_readCursor : (s.respond q st v).readCursor = s.readCursor := by cases q <;> rfl
@[simp] theorem State.respond_storage : (s.respond q st v).storage = s.storage := by cases q <;> rfl
@[simp] theorem State.respond_pXfer : (s.respond q st v).pXfer = s.pXfer := by cases q <;> rfl
@[simp] theorem State.respond_cXfer : (s.respond q st v).cXfer = s.cXfer := by cases q <;> rfl
@[simp] theorem State.respond_src : (s.respond q st v).src = s.src := by cases q <;> rfl
@[simp] theorem State.respond_srcIdx : (s.respond q st v).srcIdx = s.srcIdx := by cases q <;> rfl
@[simp] theorem State.respond_dst : (s.respond q st v).dst = s.dst := by cases q <;> rfl
@[simp] theorem State.respond_port : (s.respond q st v).port = s.port := by cases q <;> rfl
@[simp] theorem State.respond_turns : (s.respond q st v).turns = s.turns := by cases q <;> rfl
@[simp] theorem State.respond_tick : (s.respond q st v).tick = s.tick := by cases q <;> rfl
@[simp] theorem State.respond_era : (s.respond q st v).era = s.era := by cases q <;> rfl
@[simp] theorem State.respond_srcTag : (s.respond q st v).srcTag = s.srcTag := by cases q <;> rfl

@[simp] theorem State.respond_chan_same :
    (s.respond q st v).chan q = { s.chan q with rsp := (s.chan q).rsp ++ [{ status := st, value := v }] } := by
  cases q <;> rfl
theorem State.respond_chan_of_ne {q p : Port} (h : p ≠ q) : (s.respond q st v).chan p = s.chan p :=
  State.chan_setChan_of_ne _ _ h
theorem State.raise_eq (e : Status) : s.raise q e = s.respond q e 0 := rfl
@[simp] theorem State.respond_available : (s.respond q st v).available = s.available := by cases q <;> rfl
@[simp] theorem State.respond_unusedBytes : (s.respond q st v).unusedBytes = s.unusedBytes := by cases q <;> rfl
@[simp] theorem State.respond_byteAt (a : Nat) : (s.respond q st v).byteAt a = s.byteAt a := by cases q <;> rfl
@[simp] theorem State.respond_srcByte (k : Nat) : (s.respond q st v).srcByte k = s.srcByte k := by cases q <;> rfl
@[simp] theorem State.respond_contents : (s.respond q st v).contents = s.contents := by cases q <;> rfl

/-! ### `accept` -/

@[simp] theorem State.accept_build (d : CmdIn) (rest : List CmdIn) : (s.accept q d rest).build = s.build := by cases q <;> rfl
@[simp] theorem State.accept_alive (d : CmdIn) (rest : List CmdIn) : (s.accept q d rest).alive = s.alive := by cases q <;> rfl
@[simp] theorem State.accept_capacity (d : CmdIn) (rest : List CmdIn) : (s.accept q d rest).capacity = s.capacity := by cases q <;> rfl
@[simp] theorem State.accept_elementSize (d : CmdIn) (rest : List CmdIn) : (s.accept q d rest).elementSize = s.elementSize := by cases q <;> rfl
@[simp] theorem State.accept_mask (d : CmdIn) (rest : List CmdIn) : (s.accept q d rest).mask = s.mask := by cases q <;> rfl
@[simp] theorem State.accept_writeCursor (d : CmdIn) (rest : List CmdIn) : (s.accept q d rest).writeCursor = s.writeCursor := by cases q <;> rfl
@[simp] theorem State.accept_readCursor (d : CmdIn) (rest : List CmdIn) : (s.accept q d rest).readCursor = s.readCursor := by cases q <;> rfl
@[simp] theorem State.accept_storage (d : CmdIn) (rest : List CmdIn) : (s.accept q d rest).storage = s.storage := by cases q <;> rfl
@[simp] theorem State.accept_pXfer (d : CmdIn) (rest : List CmdIn) : (s.accept q d rest).pXfer = s.pXfer := by cases q <;> rfl
@[simp] theorem State.accept_cXfer (d : CmdIn) (rest : List CmdIn) : (s.accept q d rest).cXfer = s.cXfer := by cases q <;> rfl
@[simp] theorem State.accept_src (d : CmdIn) (rest : List CmdIn) : (s.accept q d rest).src = if q = .P then d.data else s.src := by cases q <;> rfl
@[simp] theorem State.accept_srcIdx (d : CmdIn) (rest : List CmdIn) : (s.accept q d rest).srcIdx = s.srcIdx := by cases q <;> rfl
@[simp] theorem State.accept_dst (d : CmdIn) (rest : List CmdIn) : (s.accept q d rest).dst = s.dst := by cases q <;> rfl
@[simp] theorem State.accept_port (d : CmdIn) (rest : List CmdIn) : (s.accept q d rest).port = q := by cases q <;> rfl
@[simp] theorem State.accept_turns (d : CmdIn) (rest : List CmdIn) : (s.accept q d rest).turns = s.turns := by cases q <;> rfl
@[simp] theorem State.accept_tick (d : CmdIn) (rest : List CmdIn) : (s.accept q d rest).tick = s.tick := by cases q <;> rfl
@[simp] theorem State.accept_era (d : CmdIn) (rest : List CmdIn) : (s.accept q d rest).era = s.era := by cases q <;> rfl
@[simp] theorem State.accept_srcTag (d : CmdIn) (rest : List CmdIn) : (s.accept q d rest).srcTag = if q = .P then s.tick else s.srcTag := by cases q <;> rfl

@[simp] theorem State.accept_chan_same (d : CmdIn) (rest : List CmdIn) :
    (s.accept q d rest).chan q = { s.chan q with cmds := rest } := by
  cases q <;> rfl
theorem State.accept_chan_of_ne {q p : Port} (h : p ≠ q) (d : CmdIn) (rest : List CmdIn) :
    (s.accept q d rest).chan p = s.chan p := by
  cases q <;> cases p <;> first | rfl | exact absurd rfl h

/-! ### `spendTurn`, `resetInput`, `construct` -/

@[simp] theorem State.spendTurn_build : (s.spendTurn).build = s.build := rfl
@[simp] theorem State.spendTurn_alive : (s.spendTurn).alive = s.alive := rfl
@[simp] theorem State.spendTurn_capacity : (s.spendTurn).capacity = s.capacity := rfl
@[simp] theorem State.spendTurn_elementSize : (s.spendTurn).elementSize = s.elementSize := rfl
@[simp] theorem State.spendTurn_mask : (s.spendTurn).mask = s.mask := rfl
@[simp] theorem State.spendTurn_writeCursor : (s.spendTurn).writeCursor = s.writeCursor := rfl
@[simp] theorem State.spendTurn_readCursor : (s.spendTurn).readCursor = s.readCursor := rfl
@[simp] theorem State.spendTurn_storage : (s.spendTurn).storage = s.storage := rfl
@[simp] theorem State.spendTurn_pXfer : (s.spendTurn).pXfer = s.pXfer := rfl
@[simp] theorem State.spendTurn_cXfer : (s.spendTurn).cXfer = s.cXfer := rfl
@[simp] theorem State.spendTurn_portK : (s.spendTurn).portK = s.portK := rfl
@[simp] theorem State.spendTurn_portP : (s.spendTurn).portP = s.portP := rfl
@[simp] theorem State.spendTurn_portC : (s.spendTurn).portC = s.portC := rfl
@[simp] theorem State.spendTurn_src : (s.spendTurn).src = s.src := rfl
@[simp] theorem State.spendTurn_srcIdx : (s.spendTurn).srcIdx = s.srcIdx := rfl
@[simp] theorem State.spendTurn_dst : (s.spendTurn).dst = s.dst := rfl
@[simp] theorem State.spendTurn_port : (s.spendTurn).port = s.port := rfl
@[simp] theorem State.spendTurn_turns : (s.spendTurn).turns = s.turns.tail := rfl
@[simp] theorem State.spendTurn_tick : (s.spendTurn).tick = s.tick + 1 := rfl
@[simp] theorem State.spendTurn_era : (s.spendTurn).era = s.era := rfl
@[simp] theorem State.spendTurn_srcTag : (s.spendTurn).srcTag = s.srcTag := rfl

@[simp] theorem State.spendTurn_chan : s.spendTurn.chan q = s.chan q := by cases q <;> rfl

@[simp] theorem State.resetInput_build : (s.resetInput).build = s.build := rfl
@[simp] theorem State.resetInput_alive : (s.resetInput).alive = false := rfl
@[simp] theorem State.resetInput_capacity : (s.resetInput).capacity = 0 := rfl
@[simp] theorem State.resetInput_elementSize : (s.resetInput).elementSize = 0 := rfl
@[simp] theorem State.resetInput_mask : (s.resetInput).mask = 0 := rfl
@[simp] theorem State.resetInput_writeCursor : (s.resetInput).writeCursor = 0 := rfl
@[simp] theorem State.resetInput_readCursor : (s.resetInput).readCursor = 0 := rfl
@[simp] theorem State.resetInput_storage : (s.resetInput).storage = s.storage := rfl
@[simp] theorem State.resetInput_pXfer : (s.resetInput).pXfer = none := rfl
@[simp] theorem State.resetInput_cXfer : (s.resetInput).cXfer = none := rfl
@[simp] theorem State.resetInput_portK : (s.resetInput).portK = s.portK := rfl
@[simp] theorem State.resetInput_portP : (s.resetInput).portP = s.portP := rfl
@[simp] theorem State.resetInput_portC : (s.resetInput).portC = s.portC := rfl
@[simp] theorem State.resetInput_src : (s.resetInput).src = s.src := rfl
@[simp] theorem State.resetInput_srcIdx : (s.resetInput).srcIdx = s.srcIdx := rfl
@[simp] theorem State.resetInput_dst : (s.resetInput).dst = s.dst := rfl
@[simp] theorem State.resetInput_port : (s.resetInput).port = s.port := rfl
@[simp] theorem State.resetInput_turns : (s.resetInput).turns = s.turns := rfl
@[simp] theorem State.resetInput_tick : (s.resetInput).tick = s.tick := rfl
@[simp] theorem State.resetInput_era : (s.resetInput).era = s.era := rfl
@[simp] theorem State.resetInput_srcTag : (s.resetInput).srcTag = s.srcTag := rfl

@[simp] theorem State.resetInput_chan : s.resetInput.chan q = s.chan q := by cases q <;> rfl

@[simp] theorem State.construct_build (cap : Nat) (e : Word) : (s.construct cap e).build = s.build := rfl
@[simp] theorem State.construct_alive (cap : Nat) (e : Word) : (s.construct cap e).alive = true := rfl
@[simp] theorem State.construct_capacity (cap : Nat) (e : Word) : (s.construct cap e).capacity = BitVec.ofNat 32 cap := rfl
@[simp] theorem State.construct_elementSize (cap : Nat) (e : Word) : (s.construct cap e).elementSize = e := rfl
@[simp] theorem State.construct_mask (cap : Nat) (e : Word) : (s.construct cap e).mask = BitVec.ofNat 32 cap - 1 := rfl
@[simp] theorem State.construct_writeCursor (cap : Nat) (e : Word) : (s.construct cap e).writeCursor = 0 := rfl
@[simp] theorem State.construct_readCursor (cap : Nat) (e : Word) : (s.construct cap e).readCursor = 0 := rfl
@[simp] theorem State.construct_storage (cap : Nat) (e : Word) : (s.construct cap e).storage = [] := rfl
@[simp] theorem State.construct_pXfer (cap : Nat) (e : Word) : (s.construct cap e).pXfer = s.pXfer := rfl
@[simp] theorem State.construct_cXfer (cap : Nat) (e : Word) : (s.construct cap e).cXfer = s.cXfer := rfl
@[simp] theorem State.construct_portK (cap : Nat) (e : Word) : (s.construct cap e).portK = s.portK := rfl
@[simp] theorem State.construct_portP (cap : Nat) (e : Word) : (s.construct cap e).portP = s.portP := rfl
@[simp] theorem State.construct_portC (cap : Nat) (e : Word) : (s.construct cap e).portC = s.portC := rfl
@[simp] theorem State.construct_src (cap : Nat) (e : Word) : (s.construct cap e).src = s.src := rfl
@[simp] theorem State.construct_srcIdx (cap : Nat) (e : Word) : (s.construct cap e).srcIdx = s.srcIdx := rfl
@[simp] theorem State.construct_dst (cap : Nat) (e : Word) : (s.construct cap e).dst = s.dst := rfl
@[simp] theorem State.construct_port (cap : Nat) (e : Word) : (s.construct cap e).port = s.port := rfl
@[simp] theorem State.construct_turns (cap : Nat) (e : Word) : (s.construct cap e).turns = s.turns := rfl
@[simp] theorem State.construct_tick (cap : Nat) (e : Word) : (s.construct cap e).tick = s.tick := rfl
@[simp] theorem State.construct_era (cap : Nat) (e : Word) : (s.construct cap e).era = s.tick := rfl
@[simp] theorem State.construct_srcTag (cap : Nat) (e : Word) : (s.construct cap e).srcTag = s.srcTag := rfl

@[simp] theorem State.construct_chan (cap : Nat) (e : Word) : (s.construct cap e).chan q = s.chan q := by cases q <;> rfl

end Sys2Proof.Machine
end

