-- ==== Sys2Proof/Laws/Ops.lean ====
section
/-! SUPPORT. What each shared operation, each meaning and each copy step can do, said once; later proofs cite these. -/

namespace Sys2Proof.Machine

/-- The port check either runs the body on an allowed port or answers IllegalCommand (R86). -/
theorem onPorts_cases {allowed : List Port} {s : State} {body : State → Outcome} {o : Outcome}
    (h : onPorts allowed s body = o) :
    (s.port ∈ allowed ∧ body s = o) ∨ (s.port ∉ allowed ∧ o = .next (s.respond s.port .illegalCommand 0)) := by
  unfold onPorts at h
  split at h
  · exact .inl ⟨‹_›, h⟩
  · exact .inr ⟨‹_›, h.symm⟩

/-- The state guard either runs the body on a live buffer or answers InvalidState (R186). -/
theorem whenAlive_cases {s : State} {body : State → Outcome} {o : Outcome} (h : whenAlive s body = o) :
    (s.alive = true ∧ body s = o) ∨ (s.alive = false ∧ o = .next (s.respond s.port .invalidState 0)) := by
  unfold whenAlive at h
  split at h
  · exact .inl ⟨‹_›, h⟩
  · exact .inr ⟨by simpa using ‹¬ s.alive = true›, h.symm⟩

theorem memRead_of_lt {s : State} {o : Word} (h : o < s.capacity) : s.memRead o = some (s.byteAt o.toNat) := if_pos h

theorem memWrite_of_lt {s : State} {o : Word} (h : o < s.capacity) (v : Byte) :
    s.memWrite o v = some { s with storage := Memory.store s.storage o.toNat v } := if_pos h

/-- A query answers one response on the port that asked, and does nothing else (R68, R186). -/
theorem query_eq (value : State → Word) (s : State) :
    query value s = .next (if s.alive then s.respond s.port .ok (value s) else s.respond s.port .invalidState 0) := by
  unfold query whenAlive State.raise
  split <;> rfl

/-- Every next state of P.SAMPLE (R61, R131). -/
theorem pSample_cases {len : Word} {s : State} {o : Outcome} (h : pSample len s = o) (hi : s.pXfer = none) :
    (s.writeEff len = 0 ∧ o = .next (s.respond s.port .ok 0)) ∨
    (s.writeEff len ≠ 0 ∧
      o = .next { s with pXfer := some { base := s.writeCursor, eff := s.writeEff len, i := 0 } }) := by
  unfold pSample at h
  rw [hi] at h
  simp only at h
  split at h
  · exact .inl ⟨‹_›, h.symm⟩
  · exact .inr ⟨‹_›, h.symm⟩

/-- Every next state of C.SAMPLE (R62, R137). -/
theorem cSample_cases {kind : ReadKind} {len : Word} {s : State} {o : Outcome} (h : cSample kind len s = o)
    (hi : s.cXfer = none) :
    (s.readEff len = 0 ∧ o = .next (s.respond s.port .ok 0)) ∨
    (s.readEff len ≠ 0 ∧
      o = .next { s with cXfer := some { kind := kind, base := s.readCursor, eff := s.readEff len, i := 0 } }) := by
  unfold cSample at h
  rw [hi] at h
  simp only at h
  split at h
  · exact .inl ⟨‹_›, h.symm⟩
  · exact .inr ⟨‹_›, h.symm⟩

/-- Everything WRITE can do on an idle port P: two rejections, an empty answer, or a transfer begun (R61, R88, R186). -/
theorem execWrite_cases {len : Word} {s : State} {o : Outcome} (h : execWrite len s = o) (hi : s.pXfer = none) :
    (s.port ≠ .P ∧ o = .next (s.respond s.port .illegalCommand 0)) ∨
    (s.port = .P ∧ s.alive = false ∧ o = .next (s.respond s.port .invalidState 0)) ∨
    (s.port = .P ∧ s.alive = true ∧ s.writeEff len = 0 ∧ o = .next (s.respond s.port .ok 0)) ∨
    (s.port = .P ∧ s.alive = true ∧ s.writeEff len ≠ 0 ∧
      o = .next { s with pXfer := some { base := s.writeCursor, eff := s.writeEff len, i := 0 } }) := by
  rcases onPorts_cases h with ⟨hp, h⟩ | ⟨hp, h⟩
  · rcases whenAlive_cases h with ⟨ha, h⟩ | ⟨ha, h⟩
    · rcases pSample_cases h hi with h | h
      · exact .inr (.inr (.inl ⟨by simpa using hp, ha, h⟩))
      · exact .inr (.inr (.inr ⟨by simpa using hp, ha, h⟩))
    · exact .inr (.inl ⟨by simpa using hp, ha, h⟩)
  · exact .inl ⟨by simpa using hp, h⟩

/-- Everything a READ or PEEK can do on an idle port C (R62, R88, R186). -/
theorem readOrPeek_cases {kind : ReadKind} {len : Word} {s : State} {o : Outcome}
    (h : onPorts [.C] s (fun s => whenAlive s (cSample kind len)) = o) (hi : s.cXfer = none) :
    (s.port ≠ .C ∧ o = .next (s.respond s.port .illegalCommand 0)) ∨
    (s.port = .C ∧ s.alive = false ∧ o = .next (s.respond s.port .invalidState 0)) ∨
    (s.port = .C ∧ s.alive = true ∧ s.readEff len = 0 ∧ o = .next (s.respond s.port .ok 0)) ∨
    (s.port = .C ∧ s.alive = true ∧ s.readEff len ≠ 0 ∧
      o = .next { s with cXfer := some { kind := kind, base := s.readCursor, eff := s.readEff len, i := 0 } }) := by
  rcases onPorts_cases h with ⟨hp, h⟩ | ⟨hp, h⟩
  · rcases whenAlive_cases h with ⟨ha, h⟩ | ⟨ha, h⟩
    · rcases cSample_cases h hi with h | h
      · exact .inr (.inr (.inl ⟨by simpa using hp, ha, h⟩))
      · exact .inr (.inr (.inr ⟨by simpa using hp, ha, h⟩))
    · exact .inr (.inl ⟨by simpa using hp, ha, h⟩)
  · exact .inl ⟨by simpa using hp, h⟩

/-- WRITE with something to move begins its transfer. -/
theorem execWrite_begins {len : Word} {s : State} (hp : s.port = .P) (ha : s.alive = true) (hi : s.pXfer = none)
    (he : s.writeEff len ≠ 0) :
    execWrite len s = .next { s with pXfer := some { base := s.writeCursor, eff := s.writeEff len, i := 0 } } := by
  rcases execWrite_cases (o := execWrite len s) rfl hi with ⟨h, _⟩ | ⟨_, h, _⟩ | ⟨_, _, h, _⟩ | ⟨_, _, _, h⟩
  · exact absurd hp h
  · simp [ha] at h
  · exact absurd h he
  · exact h

/-- WRITE with nothing to move answers at once. -/
theorem execWrite_empty {len : Word} {s : State} (hp : s.port = .P) (ha : s.alive = true) (hi : s.pXfer = none)
    (he : s.writeEff len = 0) : execWrite len s = .next (s.respond .P .ok 0) := by
  rcases execWrite_cases (o := execWrite len s) rfl hi with ⟨h, _⟩ | ⟨_, h, _⟩ | ⟨_, _, _, h⟩ | ⟨_, _, h, _⟩
  · exact absurd hp h
  · simp [ha] at h
  · rw [h, hp]
  · exact absurd he h

/-- READ or PEEK with something to move begins its transfer. -/
theorem readOrPeek_begins {kind : ReadKind} {len : Word} {s : State} (hp : s.port = .C) (ha : s.alive = true)
    (hi : s.cXfer = none) (he : s.readEff len ≠ 0) :
    onPorts [.C] s (fun s => whenAlive s (cSample kind len)) =
      .next { s with cXfer := some { kind := kind, base := s.readCursor, eff := s.readEff len, i := 0 } } := by
  rcases readOrPeek_cases (kind := kind) (len := len) (s := s) rfl hi with ⟨h, _⟩ | ⟨_, h, _⟩ | ⟨_, _, h, _⟩ | ⟨_, _, _, h⟩
  · exact absurd hp h
  · simp [ha] at h
  · exact absurd h he
  · exact h

/-- READ or PEEK with nothing to move answers at once. -/
theorem readOrPeek_empty {kind : ReadKind} {len : Word} {s : State} (hp : s.port = .C) (ha : s.alive = true)
    (hi : s.cXfer = none) (he : s.readEff len = 0) :
    onPorts [.C] s (fun s => whenAlive s (cSample kind len)) = .next (s.respond .C .ok 0) := by
  rcases readOrPeek_cases (kind := kind) (len := len) (s := s) rfl hi with ⟨h, _⟩ | ⟨_, h, _⟩ | ⟨_, _, _, h⟩ | ⟨_, _, h, _⟩
  · exact absurd hp h
  · simp [ha] at h
  · rw [h, hp]
  · exact absurd he h

/-- A STORE at an existing offset (R61). -/
theorem pCopyStep_store {x : WriteXfer} {s : State} (hi : x.i < x.eff) (ho : off s.mask x.base x.i < s.capacity) :
    pCopyStep x s = .next { s with
      storage := Memory.store s.storage (off s.mask x.base x.i).toNat (s.srcByte x.i.toNat)
      srcIdx  := s.srcIdx ++ [x.i]
      pXfer   := some { x with i := x.i + 1 } } := by
  unfold pCopyStep pStore
  rw [if_pos hi, memWrite_of_lt ho]

/-- A LOAD at an existing offset (R62). -/
theorem cCopyStep_load {y : ReadXfer} {s : State} (hi : y.i < y.eff) (ho : off s.mask y.base y.i < s.capacity) :
    cCopyStep y s = .next { s with
      dst   := s.dst ++ [(y.i, s.byteAt (off s.mask y.base y.i).toNat)]
      cXfer := some { y with i := y.i + 1 } } := by
  unfold cCopyStep cLoad
  rw [if_pos hi, memRead_of_lt ho]

/-- Everything INIT can do (R110, R185): an error that changes nothing, or the construction of R114. -/
theorem execInit_cases {a b : Word} {s : State} {o : Outcome} (h : execInit a b s = o) :
    (∃ e, e ≠ .ok ∧ o = .next (s.respond s.port e 0)) ∨
    (∃ cap, s.port = .K ∧ s.alive = false ∧ s.inFlight = false ∧ a ≠ 0 ∧ b ≠ 0 ∧ capacityFor s.build a b = .ok cap ∧
      o = .next ((s.construct cap b).respond s.port .ok 0)) := by
  rcases onPorts_cases h with ⟨hp, h⟩ | ⟨_, h⟩
  · split at h
    · exact .inl ⟨.invalidState, by decide, h.symm⟩
    · next hg =>
      simp only [Bool.or_eq_true, not_or, Bool.not_eq_true] at hg
      split at h
      · exact .inl ⟨.invalidArgument, by decide, h.symm⟩
      · next hz =>
        rw [not_or] at hz
        split at h
        · next e he =>
          refine .inl ⟨e, ?_, h.symm⟩
          rintro rfl
          revert he
          unfold capacityFor
          split <;> dsimp only <;> split <;> simp
        · next cap hc => exact .inr ⟨cap, by simpa using hp, hg.1, hg.2, hz.1, hz.2, hc, h.symm⟩
  · exact .inl ⟨.illegalCommand, by decide, h⟩

/-- Everything DESTROY can do (R117, R118). -/
theorem execDestroy_cases {s : State} {o : Outcome} (h : execDestroy s = o) :
    (∃ e, o = .next (s.respond s.port e 0)) ∨
    (s.port = .K ∧ s.alive = true ∧ s.inFlight = false ∧
      o = .next ({ s with alive := false, writeCursor := 0, readCursor := 0 }.respond s.port .ok 0)) := by
  rcases onPorts_cases h with ⟨hp, h⟩ | ⟨_, h⟩
  · split at h
    · exact .inl ⟨.invalidState, h.symm⟩
    · split at h
      · exact .inr ⟨by simpa using hp, ‹_›, by simpa using ‹¬ s.inFlight = true›, h.symm⟩
      · exact .inl ⟨.ok, h.symm⟩
  · exact .inl ⟨.illegalCommand, h⟩

/-- Every next state of port P's copy steps (R61): a STORE or the PUBLISH. -/
theorem pCopyStep_cases {x : WriteXfer} {s t : State} (h : pCopyStep x s = .next t) :
    (x.i < x.eff ∧ off s.mask x.base x.i < s.capacity ∧
      t = { s with
        storage := Memory.store s.storage (off s.mask x.base x.i).toNat (s.srcByte x.i.toNat)
        srcIdx  := s.srcIdx ++ [x.i]
        pXfer   := some { x with i := x.i + 1 } }) ∨
    (x.i = x.eff ∧ t = { s with writeCursor := x.base + x.eff, pXfer := none }.respond .P .ok x.eff) := by
  unfold pCopyStep at h
  split at h
  · next hi =>
    unfold pStore State.memWrite at h
    split at h
    · cases h
    · next s' hs =>
      split at hs
      · next ho =>
        cases hs; cases h
        exact .inl ⟨hi, ho, rfl⟩
      · cases hs
  · split at h
    · next hi => cases h; exact .inr ⟨hi, rfl⟩
    · cases h

/-- Every next state of port C's copy steps (R62): a LOAD, a READ's PUBLISH, or a PEEK's end. -/
theorem cCopyStep_cases {y : ReadXfer} {s t : State} (h : cCopyStep y s = .next t) :
    (y.i < y.eff ∧ off s.mask y.base y.i < s.capacity ∧
      t = { s with
        dst   := s.dst ++ [(y.i, s.byteAt (off s.mask y.base y.i).toNat)]
        cXfer := some { y with i := y.i + 1 } }) ∨
    (y.i = y.eff ∧ y.kind = .read ∧
      t = { s with readCursor := y.base + y.eff, cXfer := none }.respond .C .ok y.eff) ∨
    (y.i = y.eff ∧ y.kind = .peek ∧ t = { s with cXfer := none }.respond .C .ok 0) := by
  unfold cCopyStep at h
  split at h
  · next hi =>
    unfold cLoad State.memRead at h
    split at h
    · cases h
    · next v hv =>
      split at hv
      · next ho =>
        cases hv; cases h
        exact .inl ⟨hi, ho, rfl⟩
      · cases hv
  · split at h
    · next hi =>
      unfold cPublish at h
      split at h
      · next hk => cases h; exact .inr (.inl ⟨hi, hk, rfl⟩)
      · next hk => cases h; exact .inr (.inr ⟨hi, hk, rfl⟩)
    · cases h

end Sys2Proof.Machine
end

