-- ==== Sys2Proof/Laws/PerInstr.lean ====
section
/-! SUPPORT. Statements made for every command, one lemma for each constructor of `Instr`. -/

namespace Sys2Proof.Laws.EncodedFields

/-- The encoder drives each field of R83 as R85 and R89 ask: the command's own `op`, its operands, and zero in a field that
the command ignores. -/
def Statement (i : Instr) : Prop :=
  opField (encode i) = i.opcode ∧ arg1Field (encode i) = i.arg1 ∧ arg0Field (encode i) = i.arg0

/-- It holds of every packed word, so of every command. -/
theorem of_packCmd (i : Instr) : Statement i :=
  ⟨opField_packCmd _ _ _, arg1Field_packCmd _ _ _, arg0Field_packCmd _ _ _⟩

theorem init (requestedCount elementSize : Word) : Statement (.init requestedCount elementSize) := of_packCmd _
theorem destroy : Statement .destroy := of_packCmd _
theorem write (len : Word) : Statement (.write len) := of_packCmd _
theorem read (len : Word) : Statement (.read len) := of_packCmd _
theorem peek (len : Word) : Statement (.peek len) := of_packCmd _
theorem capacity : Statement .capacity := of_packCmd _
theorem available : Statement .available := of_packCmd _
theorem unused : Statement .unused := of_packCmd _
theorem isEmpty : Statement .isEmpty := of_packCmd _
theorem isFull : Statement .isFull := of_packCmd _

end Sys2Proof.Laws.EncodedFields
end

