-- ==== Sys2Proof/Laws/Step.lean ====
section
/-! SUPPORT. Everything a command and a step can do, said once (the inversion lemmas of `exec`, `runCommand` and `step`). -/

namespace Sys2Proof.Machine

/-- Port `q` has no transfer in flight, so that it may take a command (R60, R81). -/
def State.IdleAt (s : State) (q : Port) : Prop := (q = .P → s.pXfer = none) ∧ (q = .C → s.cXfer = none)

/-- The five ways a command can end its first step on an idle port: one response and nothing else, a WRITE begun, a READ or
PEEK begun, a buffer constructed, a buffer destroyed. -/
inductive CommandEffect (s : State) : State → Prop
  | answered (st : Status) (v : Word) (error : st ≠ .ok → v = 0) : CommandEffect s (s.respond s.port st v)
  | writeBegun (len : Word) (port : s.port = .P) (live : s.alive = true) (eff : s.writeEff len ≠ 0) :
    CommandEffect s { s with pXfer := some { base := s.writeCursor, eff := s.writeEff len, i := 0 } }
  | readBegun (kind : ReadKind) (len : Word) (port : s.port = .C) (live : s.alive = true) (eff : s.readEff len ≠ 0) :
    CommandEffect s { s with cXfer := some { kind := kind, base := s.readCursor, eff := s.readEff len, i := 0 } }
  | constructed (requestedCount elementSize : Word) (cap : Nat) (port : s.port = .K) (dead : s.alive = false)
    (idle : s.inFlight = false) (count : requestedCount ≠ 0) (size : elementSize ≠ 0)
    (fits : capacityFor s.build requestedCount elementSize = .ok cap) :
    CommandEffect s ((s.construct cap elementSize).respond s.port .ok 0)
  | destroyed (port : s.port = .K) (live : s.alive = true) (idle : s.inFlight = false) :
    CommandEffect s ({ s with alive := false, writeCursor := 0, readCursor := 0 }.respond s.port .ok 0)

theorem query_effect {value : State → Word} {s t : State} (h : query value s = .next t) : CommandEffect s t := by
  rw [query_eq] at h
  cases h
  split
  · exact .answered _ _ (absurd rfl)
  · exact .answered _ _ fun _ => rfl

theorem readOrPeek_effect {kind : ReadKind} {len : Word} {s t : State} (hi : s.cXfer = none)
    (h : onPorts [.C] s (fun s => whenAlive s (cSample kind len)) = .next t) : CommandEffect s t := by
  rcases readOrPeek_cases h hi with ⟨_, e⟩ | ⟨_, _, e⟩ | ⟨_, _, _, e⟩ | ⟨hp, ha, he, e⟩ <;> cases e
  · exact .answered _ _ fun _ => rfl
  · exact .answered _ _ fun _ => rfl
  · exact .answered _ _ fun _ => rfl
  · exact .readBegun _ _ hp ha he

/-- Every next state of a command on an idle port is one of the five. -/
theorem exec_effect {i : Instr} {s t : State} (hidle : s.IdleAt s.port) (h : exec i s = .next t) : CommandEffect s t := by
  cases i with
  | init a b =>
    rcases execInit_cases h with ⟨e, _, he⟩ | ⟨cap, hp, ha, hf, h1, h2, hc, he⟩ <;> cases he
    · exact .answered _ _ fun _ => rfl
    · exact .constructed a b cap hp ha hf h1 h2 hc
  | destroy =>
    rcases execDestroy_cases h with ⟨e, he⟩ | ⟨hp, ha, hf, he⟩ <;> cases he
    · exact .answered _ _ fun _ => rfl
    · exact .destroyed hp ha hf
  | write len =>
    have h : onPorts [.P] s (fun s => whenAlive s (pSample len)) = .next t := h
    by_cases hp : s.port = .P
    · rcases execWrite_cases h (hidle.1 hp) with ⟨_, e⟩ | ⟨_, _, e⟩ | ⟨_, _, _, e⟩ | ⟨_, ha, he, e⟩ <;> cases e
      · exact .answered _ _ fun _ => rfl
      · exact .answered _ _ fun _ => rfl
      · exact .answered _ _ fun _ => rfl
      · exact .writeBegun _ hp ha he
    · rcases onPorts_cases h with ⟨hm, _⟩ | ⟨_, e⟩
      · exact absurd (by simpa using hm) hp
      · cases e; exact .answered _ _ fun _ => rfl
  | read len =>
    have h : onPorts [.C] s (fun s => whenAlive s (cSample .read len)) = .next t := h
    by_cases hp : s.port = .C
    · exact readOrPeek_effect (hidle.2 hp) h
    · rcases onPorts_cases h with ⟨hm, _⟩ | ⟨_, e⟩
      · exact absurd (by simpa using hm) hp
      · cases e; exact .answered _ _ fun _ => rfl
  | peek len =>
    have h : onPorts [.C] s (fun s => whenAlive s (cSample .peek len)) = .next t := h
    by_cases hp : s.port = .C
    · exact readOrPeek_effect (hidle.2 hp) h
    · rcases onPorts_cases h with ⟨hm, _⟩ | ⟨_, e⟩
      · exact absurd (by simpa using hm) hp
      · cases e; exact .answered _ _ fun _ => rfl
  | capacity => exact query_effect h
  | available => exact query_effect h
  | unused => exact query_effect h
  | isEmpty => exact query_effect (value := fun s => boolValue s.empty) h
  | isFull => exact query_effect (value := fun s => boolValue s.full) h

/-- A command word on an idle port likewise (R86, R87). -/
theorem runCommand_effect {w : CmdWord} {s t : State} (hidle : s.IdleAt s.port) (h : runCommand w s = .next t) :
    CommandEffect s t := by
  unfold runCommand at h
  split at h
  · exact exec_effect hidle h
  · cases h; exact .answered _ _ fun _ => rfl

/-- Everything a step can do. -/
inductive StepEffect (s : State) : State → Prop
  | reset (turn : s.turn = .reset) : StepEffect s s.spendTurn.resetInput
  | stored (x : WriteXfer) (turn : s.turn = .port .P) (busy : s.pXfer = some x) (index : x.i < x.eff)
    (exists_ : off s.mask x.base x.i < s.capacity) :
    StepEffect s { s.spendTurn with
      storage := Memory.store s.storage (off s.mask x.base x.i).toNat (s.srcByte x.i.toNat)
      srcIdx  := s.srcIdx ++ [x.i]
      pXfer   := some { x with i := x.i + 1 } }
  | writePublished (x : WriteXfer) (turn : s.turn = .port .P) (busy : s.pXfer = some x) (index : x.i = x.eff) :
    StepEffect s ({ s.spendTurn with writeCursor := x.base + x.eff, pXfer := none }.respond .P .ok x.eff)
  | loaded (y : ReadXfer) (turn : s.turn = .port .C) (busy : s.cXfer = some y) (index : y.i < y.eff)
    (exists_ : off s.mask y.base y.i < s.capacity) :
    StepEffect s { s.spendTurn with
      dst   := s.dst ++ [(y.i, s.byteAt (off s.mask y.base y.i).toNat)]
      cXfer := some { y with i := y.i + 1 } }
  | readPublished (y : ReadXfer) (turn : s.turn = .port .C) (busy : s.cXfer = some y) (index : y.i = y.eff)
    (kind : y.kind = .read) :
    StepEffect s ({ s.spendTurn with readCursor := y.base + y.eff, cXfer := none }.respond .C .ok y.eff)
  | peekEnded (y : ReadXfer) (turn : s.turn = .port .C) (busy : s.cXfer = some y) (index : y.i = y.eff)
    (kind : y.kind = .peek) :
    StepEffect s ({ s.spendTurn with cXfer := none }.respond .C .ok 0)
  | idle (q : Port) (turn : s.turn = .port q) (free : s.IdleAt q) (none_ : (s.chan q).cmds = []) : StepEffect s s.spendTurn
  | command (q : Port) (c : CmdIn) (rest : List CmdIn) (t : State) (turn : s.turn = .port q) (free : s.IdleAt q)
    (cmds : (s.chan q).cmds = c :: rest) (run : runCommand c.word (s.spendTurn.accept q c rest) = .next t)
    (effect : CommandEffect (s.spendTurn.accept q c rest) t) : StepEffect s t

theorem acceptNext_effect {q : Port} {s t : State} (turn : s.turn = .port q) (free : s.IdleAt q)
    (h : acceptNext q s.spendTurn = .next t) : StepEffect s t := by
  unfold acceptNext at h
  rw [State.spendTurn_chan] at h
  split at h
  · next hc => cases h; exact .idle q turn free hc
  · next c rest hc =>
    refine .command q c rest t turn free hc h (runCommand_effect ?_ h)
    exact ⟨fun hp => by simpa using free.1 (by simpa using hp), fun hp => by simpa using free.2 (by simpa using hp)⟩

/-- Every next state of a step is one of these. -/
theorem step_effect {s t : State} (h : step s = .next t) : StepEffect s t := by
  unfold step takeTurn at h
  split at h
  · next q ht =>
    unfold portTurn at h
    split at h
    · exact acceptNext_effect ht ⟨nofun, nofun⟩ h
    · split at h
      · next x hx =>
        rcases pCopyStep_cases h with ⟨hi, ho, e⟩ | ⟨hi, e⟩ <;> subst e
        · exact .stored x ht hx hi ho
        · exact .writePublished x ht hx hi
      · next hx => exact acceptNext_effect ht ⟨fun _ => hx, nofun⟩ h
    · split at h
      · next y hy =>
        rcases cCopyStep_cases h with ⟨hi, ho, e⟩ | ⟨hi, hk, e⟩ | ⟨hi, hk, e⟩ <;> subst e
        · exact .loaded y ht hy hi ho
        · exact .readPublished y ht hy hi hk
        · exact .peekEnded y ht hy hi hk
      · next hy => exact acceptNext_effect ht ⟨nofun, fun _ => hy⟩ h
  · next ht => cases h; exact .reset ht

end Sys2Proof.Machine
end

