-- ==== Sys2Proof/Tests/Slice0.lean ====
section
/-! SUPPORT. The model's own tests: command words written out from R83 and R85, the well-formedness check, single steps with
the results of 95_test_vectors.md and of the rules' worked examples, and for every obligation with hypotheses a witness:
concrete states and operands that meet them, at the boundary values of each clause. -/

namespace Sys2Proof.Tests

open Sys2Proof.Machine

/-! ### Small states -/

/-- The next state of an outcome. -/
def after : Outcome → Option State
  | .next t    => some t
  | .fault _   => none
  | .refused _ => none

/-- A live buffer with nothing in flight: its capacity, its cursors and its stored cells. -/
def live (cap wc rc : Word) (cells : Memory) : State :=
  { State.reset with
    alive := true, capacity := cap, elementSize := 1, mask := cap - 1, writeCursor := wc, readCursor := rc
    storage := cells }

/-- The state with a port running its command. -/
def on (q : Port) (s : State) : State := { s with port := q }

/-- The cells at offsets `0, 1, ..` that hold given bytes. -/
def cellsFrom : Nat → List Byte → Memory
  | _, []      => []
  | o, b :: bs => (o, b) :: cellsFrom (o + 1) bs

/-- The last response given on a port. -/
def answer (q : Port) (o : Outcome) : Option Response := (after o).bind fun t => (t.chan q).rsp.getLast?

/-- The source of the WRITE that `mid` has in flight. -/
def midData : List Byte := [0xD0, 0xD1, 0xD2, 0xD3, 0xD4, 0xD5]

/-- The cells of `mid`: the window at offsets 5 and 6, the WRITE's bytes at 7, 0, 1, 2, 3, 4. -/
def midCells : Memory := cellsFrom 0 [0xD1, 0xD2, 0xD3, 0xD4, 0xD5, 0xA0, 0xA1, 0xD0]

/-- Both transfers in flight on a buffer of 8 bytes that holds 2: a WRITE of the other 6 that has done `i` of them, and a READ
or PEEK of the 2 that has done `j` of them. -/
def mid (i j : Word) (kind : ReadKind) : State :=
  { live 8 7 5 midCells with
    pXfer := some { base := 7, eff := 6, i := i }
    cXfer := some { kind := kind, base := 5, eff := 2, i := j }
    src   := midData
    dst   := [((0 : Word), (0xA0 : Byte)), (1, 0xA1)].take j.toNat }

/-- The state with given turns to come. -/
def turning (ts : List Turn) (s : State) : State := { s with turns := ts }

/-- The state with a command word put up on a port. -/
def offering (q : Port) (c : CmdIn) (s : State) : State :=
  s.setChan q { s.chan q with cmds := [c] }

/-! ### The encodings (R83, R85, R96) and the well-formedness check (R80, R93) -/

/-- T-D1: `op` 0x01 in bits 71..64, element size 1 in bits 63..32, count 8 in bits 31..0. -/
theorem test_decode_init : decode 0x010000000100000008#72 = .instr (.init 8 1) := by decide
/-- T-D24. -/
theorem test_decode_destroy : decode 0x020000000000000000#72 = .instr .destroy := by decide
/-- T-D2. -/
theorem test_decode_write : decode 0x030000000000000003#72 = .instr (.write 3) := by decide
/-- PRG2 step 11. -/
theorem test_decode_read : decode 0x0400000000FFFFFFFF#72 = .instr (.read 0xFFFFFFFF) := by decide
/-- T-D4, with the ignored field not zero (R89). -/
theorem test_decode_peek : decode 0x05A5A5A5A500000003#72 = .instr (.peek 3) := by decide
/-- T-D10. -/
theorem test_decode_capacity : decode 0x06DEADBEEF12345678#72 = .instr .capacity := by decide
/-- T-D6. -/
theorem test_decode_available : decode 0x070000000000000000#72 = .instr .available := by decide
/-- T-D7. -/
theorem test_decode_unused : decode 0x080000000000000000#72 = .instr .unused := by decide
/-- T-D8. -/
theorem test_decode_isEmpty : decode 0x090000000000000000#72 = .instr .isEmpty := by decide
/-- T-D9. -/
theorem test_decode_isFull : decode 0x0A0000000000000000#72 = .instr .isFull := by decide
/-- T-D11 to T-D13 and the first reserved `op` above the map (R87). -/
theorem test_decode_reserved :
    decode 0x000000000000000000#72 = .reservedOp 0x00 ∧ decode 0x0BFFFFFFFFFFFFFFFF#72 = .reservedOp 0x0B ∧
    decode 0xFFFFFFFFFFFFFFFFFF#72 = .reservedOp 0xFF := by decide
/-- R96's own examples. -/
theorem test_encode :
    encode (.init 8 1) = 0x010000000100000008#72 ∧ encode (.write 3) = 0x030000000000000003#72 ∧
    Response.word { status := .ok, value := 2 } = 0x0000000002#40 := by decide
/-- PRG2 step 11 through the table's numbering of bits, and a reserved word. -/
theorem test_decodeTableWord :
    decodeTableWord 72 0x0400000000FFFFFFFF = some (.read 0xFFFFFFFF) ∧ decodeTableWord 72 0x0B0000000000000000 = none := by
  decide

/-- R88: each of the ten pairs of a command and a port that does not allow it is refused, whatever its operands. -/
theorem test_illFormed_port :
    (CommandLine.wf { port := .P, instr := .init 8 1, data := [] }) = false ∧
    (CommandLine.wf { port := .P, instr := .destroy, data := [] }) = false ∧
    (CommandLine.wf { port := .P, instr := .read 1, data := [] }) = false ∧
    (CommandLine.wf { port := .P, instr := .peek 1, data := [] }) = false ∧
    (CommandLine.wf { port := .C, instr := .init 8 1, data := [] }) = false ∧
    (CommandLine.wf { port := .C, instr := .destroy, data := [] }) = false ∧
    (CommandLine.wf { port := .C, instr := .write 1, data := [7] }) = false ∧
    (CommandLine.wf { port := .K, instr := .write 1, data := [7] }) = false ∧
    (CommandLine.wf { port := .K, instr := .read 1, data := [] }) = false ∧
    (CommandLine.wf { port := .K, instr := .peek 1, data := [] }) = false := by decide
/-- R93: a WRITE of 3 with 2 bytes is refused, and so is every other command with data. -/
theorem test_illFormed_data :
    (CommandLine.wf { port := .P, instr := .write 3, data := [7, 8] }) = false ∧
    (CommandLine.wf { port := .K, instr := .init 8 1, data := [7] }) = false ∧
    (CommandLine.wf { port := .K, instr := .destroy, data := [7] }) = false ∧
    (CommandLine.wf { port := .C, instr := .read 1, data := [7] }) = false ∧
    (CommandLine.wf { port := .C, instr := .peek 1, data := [7] }) = false ∧
    (CommandLine.wf { port := .K, instr := .capacity, data := [7] }) = false ∧
    (CommandLine.wf { port := .P, instr := .available, data := [7] }) = false ∧
    (CommandLine.wf { port := .C, instr := .unused, data := [7] }) = false ∧
    (CommandLine.wf { port := .K, instr := .isEmpty, data := [7] }) = false ∧
    (CommandLine.wf { port := .P, instr := .isFull, data := [7] }) = false := by decide
/-- R93's own example, and a WRITE whose data is longer than its length. -/
theorem test_wellFormed :
    (CommandLine.wf { port := .P, instr := .write 3, data := [7, 8, 9] }) = true ∧
    (CommandLine.wf { port := .P, instr := .write 0, data := [7] }) = true ∧
    (CommandLine.wf { port := .C, instr := .isFull, data := [] }) = true := by decide

/-! ### Single steps -/

/-- R116, `3, 3`: capacity 16, mask 15. -/
theorem test_init_rounds_up :
    (after (exec (.init 3 3) State.reset)).map (fun t => (t.alive, t.capacity, t.mask, t.elementSize)) =
      some (true, 16, 15, 3) := by decide
/-- R116, `65536, 65536`: the product is not wrapped to 0. -/
theorem test_init_product_is_exact :
    answer .K (exec (.init 65536 65536) State.reset) = some { status := .allocationFailure, value := 0 } := by decide
/-- T-L4: cursors cleared, capacity and mask kept. -/
theorem test_destroy :
    (after (exec .destroy (live 8 3 0 []))).map (fun t => (t.alive, t.writeCursor, t.capacity, t.mask)) =
      some (false, 0, 8, 7) := by decide
/-- T-L10: a WRITE in flight is not disturbed. -/
theorem test_destroy_in_flight :
    answer .K (exec .destroy (mid 3 1 .read)) = some { status := .invalidState, value := 0 } := by decide
/-- T-W7: the effective length is the free space, taken across the cursor overflow. -/
theorem test_write_sample :
    (after (exec (.write 7) (on .P (live 8 0xFFFFFFFF 0xFFFFFFFC [])))).bind (fun t => t.pXfer) =
      some { base := 0xFFFFFFFF, eff := 5, i := 0 } := by decide
/-- R133: `0xFFFFFFFE +_W 5 = 0x00000003`, not clamped. -/
theorem test_write_publish_wraps :
    (after (pCopyStep { base := 0xFFFFFFFE, eff := 5, i := 5 } (live 8 0xFFFFFFFE 0xFFFFFFFE []))).map
      (fun t => (t.writeCursor, t.portP.rsp)) = some (3, [{ status := .ok, value := 5 }]) := by decide
/-- PRG5 step 13: the READ's last byte is delivered from offset 7. -/
theorem test_read_load :
    (after (cCopyStep { kind := .read, base := 5, eff := 3, i := 2 }
      (live 8 0xC 5 (cellsFrom 0 [21, 22, 23, 24, 5, 6, 7, 8])))).map (fun t => t.dst) = some [(2, 8)] := by decide
/-- T-R1: a READ of an empty buffer answers OK, 0 at once. -/
theorem test_read_empty :
    answer .C (exec (.read 4) (on .C (live 8 0 0 []))) = some { status := .ok, value := 0 } := by decide
/-- T-P2: PEEK 255 is clamped to the 5 bytes there are. -/
theorem test_peek_clamps :
    (after (exec (.peek 255) (on .C (live 8 0xB 6 [])))).bind (fun t => t.cXfer) =
      some { kind := .peek, base := 6, eff := 5, i := 0 } := by decide
/-- PRG2 step 5: PEEK ends with OK, 0 and moves no cursor. -/
theorem test_peek_ends :
    (after (cCopyStep { kind := .peek, base := 6, eff := 3, i := 3 } (live 8 0xB 6 []))).map
      (fun t => (t.readCursor, t.portC.rsp)) = some (6, [{ status := .ok, value := 0 }]) := by decide
/-- T-D5. -/
theorem test_capacity : answer .P (exec .capacity (on .P (live 8 6 0 []))) = some { status := .ok, value := 8 } := by decide
/-- T-Q6: right across the cursor overflow. -/
theorem test_available :
    answer .C (exec .available (on .C (live 8 3 0xFFFFFFFE []))) = some { status := .ok, value := 5 } := by decide
/-- T-Q6. -/
theorem test_unused :
    answer .K (exec .unused (on .K (live 8 3 0xFFFFFFFE []))) = some { status := .ok, value := 3 } := by decide
/-- T-Q1 and T-Q5: empty, and full with both cursors at the same physical offset. -/
theorem test_isEmpty :
    answer .P (exec .isEmpty (on .P (live 8 0 0 []))) = some { status := .ok, value := 1 } ∧
    answer .P (exec .isEmpty (on .P (live 8 4 0xFFFFFFFC []))) = some { status := .ok, value := 0 } := by decide
/-- T-Q3 and T-Q8: `7 > 7` is false, and `1 > 0` is true when the capacity is 1. -/
theorem test_isFull :
    answer .C (exec .isFull (on .C (live 8 7 0 []))) = some { status := .ok, value := 0 } ∧
    answer .C (exec .isFull (on .C (live 1 1 0 []))) = some { status := .ok, value := 1 } := by decide
/-- T-L2: INIT 8, 1 offered after reset is run by the very next step. -/
theorem test_withFetchWord :
    (after (step (State.reset.withFetchWord 72 0x010000000100000008))).map (fun t => (t.alive, t.capacity, t.mask)) =
      some (true, 8, 7) := by decide
/-- T-W11: WRITE 1 offered after reset reaches port P and is answered there. -/
theorem test_withFetchWord_write :
    answer .P (step (State.reset.withFetchWord 72 0x030000000000000001)) = some { status := .invalidState, value := 0 } := by
  decide
/-- T-A6 and T-A7. -/
theorem test_powers_of_two :
    [0, 1, 2, 3, 4, 341, 1000, 1024, 2 ^ 31].map isPow2 = [false, true, true, false, true, false, false, true, true] ∧
    [1, 2, 3, 4, 5, 8, 9, 400, 65537, 2 ^ 31, 2 ^ 31 + 1].map npot = [1, 2, 4, 4, 8, 8, 16, 512, 131072, 2 ^ 31, 2 ^ 32] := by
  decide
/-- T-O7 and T-O9. -/
theorem test_offset_mapper :
    [0, 1, 2, 3, 4].map (off 7 0xFFFFFFFF) = [7, 0, 1, 2, 3] ∧ chunk1 8 7 0xFFFFFFFF 5 = 1 ∧ chunk2 8 7 0xFFFFFFFF 5 = 4 ∧
    off 0 5 0 = 0 := by decide

/-! ### The states of the witnesses meet the invariant -/

/-- A cell that is listed stands among the keys. -/
theorem mem_keys_of_load? {m : Memory} {a : Nat} (h : (Memory.load? m a).isSome) : a ∈ m.map Prod.fst := by
  induction m with
  | nil => simp [Memory.load?] at h
  | cons c m ih =>
    obtain ⟨b, v⟩ := c
    simp only [Memory.load?] at h
    split at h
    · next e => simp [e]
    · exact List.mem_cons_of_mem _ (ih h)

theorem reset_storage_wf : Memory.wf State.reset.storage := by decide

theorem build_valid : State.reset.build.Valid := ⟨by decide, by decide, 16, by decide, by decide⟩

/-- A full buffer whose window starts at offset 3, its cursors on both sides of `2^W`. -/
def full8 : State := live 8 3 0xFFFFFFFB (cellsFrom 0 [1, 2, 3, 4, 5, 6, 7, 8])

/-- A live buffer whose listed cells are within its capacity and cover its window. -/
theorem live_liveInv {cap wc rc : Word} {cells : Memory} (hcap : ∃ n, n ≤ 31 ∧ cap.toNat = 2 ^ n) (hbound : wc - rc ≤ cap)
    (hcells : ∀ a ∈ cells.map Prod.fst, a < cap.toNat)
    (hwindow : ∀ k, k < (wc - rc).toNat → (Memory.load? cells (off (cap - 1) rc (BitVec.ofNat 32 k)).toNat).isSome) :
    LiveInv (live cap wc rc cells) where
  pow2   := hcap
  maskEq := rfl
  bound  := hbound
  cells  := fun a h => hcells a (mem_keys_of_load? h)
  window := hwindow

theorem full8_liveInv : LiveInv full8 := live_liveInv ⟨3, by decide, by decide⟩ (by decide) (by decide) (by decide)

theorem empty1_liveInv : LiveInv (live 1 5 5 []) := live_liveInv ⟨0, by decide, by decide⟩ (by decide) (by decide) (by decide)

theorem one8_liveInv : LiveInv (live 8 6 5 [(5, 0xA0)]) :=
  live_liveInv ⟨3, by decide, by decide⟩ (by decide) (by decide) (by decide)

theorem empty8_liveInv : LiveInv (live 8 0xFFFFFFFE 0xFFFFFFFE []) :=
  live_liveInv ⟨3, by decide, by decide⟩ (by decide) (by decide) (by decide)

/-- A live state with nothing in flight meets the invariant. -/
theorem quiet_invariant {cap wc rc : Word} {cells : Memory} (q : Port) (hwf : Memory.wf cells)
    (h : LiveInv (live cap wc rc cells)) : Invariant (on q (live cap wc rc cells)) where
  build   := build_valid
  memory  := hwf
  live    := fun _ => ⟨h.pow2, h.maskEq, h.bound, h.cells, h.window⟩
  dead    := fun h => by cases h
  writing := fun _ h => by cases h
  reading := fun _ h => by cases h

theorem mid_liveInv (i j : Word) (kind : ReadKind) : LiveInv (mid i j kind) :=
  have h : LiveInv (live 8 7 5 midCells) := live_liveInv ⟨3, by decide, by decide⟩ (by decide) (by decide) (by decide)
  ⟨h.pow2, h.maskEq, h.bound, h.cells, h.window⟩

/-- Every byte of the WRITE's source has its cell. -/
theorem mid_copied (k : Nat) (hk : k < 6) :
    Memory.load? midCells (off 7 7 (BitVec.ofNat 32 k)).toNat = some ((midData[k]?).getD (Config.freeSrc 0 k)) := by
  have h : ∀ k < 6, Memory.load? midCells (off 7 7 (BitVec.ofNat 32 k)).toNat = midData[k]? := by decide
  have e : midData[k]? = some midData[k] := List.getElem?_eq_getElem hk
  rw [h k hk, e]
  rfl

/-- The bytes delivered are the oldest ones. -/
theorem mid_delivered (n : Nat) (hn : n ≤ 2) :
    [((0 : Word), (0xA0 : Byte)), (1, 0xA1)].take n =
      [] ++ (List.range n).map fun k => (BitVec.ofNat 32 k, (live 8 7 5 midCells).logicalByte 5 k) := by
  interval_cases n <;> rfl

/-- Both transfers in flight, at every stage of each, whoever has the next turns. -/
theorem mid_invariant (ts : List Turn) (i j : Word) (kind : ReadKind) (hi : i ≤ 6) (hj : j ≤ 2) :
    Invariant (turning ts (mid i j kind)) where
  build   := build_valid
  memory  := by show Memory.wf midCells; decide
  live    := fun _ => ⟨(mid_liveInv i j kind).pow2, rfl, (mid_liveInv i j kind).bound, (mid_liveInv i j kind).cells,
    (mid_liveInv i j kind).window⟩
  dead    := fun h => by cases h
  writing := fun x hx => by
    cases hx
    refine ⟨rfl, rfl, show (0 : Word) < 6 by decide, hi, show (avail 7 5).toNat + (6 : Word).toNat ≤ (8 : Word).toNat by decide, fun k hk => ?_⟩
    exact mid_copied k (Nat.lt_of_lt_of_le hk hi)
  reading := fun y hy => by
    cases hy
    exact ⟨rfl, rfl, show (0 : Word) < 2 by decide, hj, show (2 : Word) ≤ avail 7 5 by decide, [], mid_delivered j.toNat hj⟩

/-! ### Witnesses -/

theorem witness_ReservedOpcodeAnswersIllegalCommand :
    (0x00FFFFFFFFFFFFFFFF#72).toNat / 2 ^ 64 = 0x00 ∧ 0x0B ≤ (0x0B0000000000000000#72).toNat / 2 ^ 64 := by decide

theorem witness_WrongPortAnswersIllegalCommand :
    (on .P full8).port = .P ∧ (on .C full8).port = .C ∧ (on .K full8).port = .K := by decide

/-- An idle port with one word waiting: a query on K, a WRITE with its data on P, a READ on C while P is busy. -/
theorem witness_StepRunsTheDecodedCommand :
    let k := turning [.port .K] (offering .K { word := 0x060000000000000000#72, data := [] } full8)
    let p := turning [.port .P] (offering .P { word := 0x030000000000000001#72, data := [9] } full8)
    let c := turning [.port .C] { offering .C { word := 0x0400000000FFFFFFFF#72, data := [] } (mid 0 0 .read) with cXfer := none }
    (k.turn = .port .K ∧ (k.chan .K).cmds = [{ word := 0x060000000000000000#72, data := [] }] ∧
      decode 0x060000000000000000#72 = .instr .capacity) ∧
    (p.turn = .port .P ∧ p.pXfer = none ∧ (p.chan .P).cmds = [{ word := 0x030000000000000001#72, data := [9] }] ∧
      decode 0x030000000000000001#72 = .instr (.write 1)) ∧
    (c.turn = .port .C ∧ c.cXfer = none ∧ (c.chan .C).cmds = [{ word := 0x0400000000FFFFFFFF#72, data := [] }] ∧
      decode 0x0400000000FFFFFFFF#72 = .instr (.read 0xFFFFFFFF)) := by decide

theorem witness_StepContinuesWhatIsInFlight :
    let p := turning [.port .P] (mid 6 0 .read)
    let c := turning [.port .C] (mid 6 2 .peek)
    let k := turning [.port .K] (mid 0 0 .read)
    let r := turning [.reset] (mid 3 1 .read)
    (p.turn = .port .P ∧ p.pXfer = some { base := 7, eff := 6, i := 6 }) ∧
    (c.turn = .port .C ∧ c.cXfer = some { kind := .peek, base := 5, eff := 2, i := 2 }) ∧
    (k.turn = .port .K ∧ (k.chan .K).cmds = []) ∧ r.turn = .reset := by decide

theorem witness_ResetAbandonsTheCommandInFlight :
    (turning [.reset] (mid 3 1 .read)).turn = .reset ∧ (mid 3 1 .read).pXfer ≠ none ∧ (mid 3 1 .read).cXfer ≠ none := by decide

/-- The largest capacity `MAX_CAP` allows, and the least product above it. -/
theorem witness_InitWithDynamicBacking :
    let s := State.reset
    s.port = .K ∧ s.alive = false ∧ s.pXfer = none ∧ s.cXfer = none ∧ s.build.Valid ∧ s.build.backing = .dynamic ∧
    (65536 : Word) ≠ 0 ∧ (65537 : Word) ≠ 0 ∧ (1 : Word) ≠ 0 ∧
    ((65536 : Word).toNat * (1 : Word).toNat ≤ 2 ^ 16 ∧
      ∀ m, (65536 : Word).toNat * (1 : Word).toNat ≤ 2 ^ m → 16 ≤ m) ∧ 2 ^ 16 ≤ s.build.maxCap ∧
    ((65537 : Word).toNat * (1 : Word).toNat ≤ 2 ^ 17 ∧
      ∀ m, (65537 : Word).toNat * (1 : Word).toNat ≤ 2 ^ m → 17 ≤ m) ∧ s.build.maxCap < 2 ^ 17 := by
  have least : ∀ n p, 2 ^ n < p → ∀ m, p ≤ 2 ^ m → n + 1 ≤ m := fun n p hp m hm =>
    (Nat.pow_lt_pow_iff_right (by decide)).1 (Nat.lt_of_lt_of_le hp hm)
  exact ⟨rfl, rfl, rfl, rfl, build_valid, rfl, by decide, by decide, by decide, ⟨by decide, least 15 65536 (by decide)⟩,
    by decide, ⟨by decide, least 16 65537 (by decide)⟩, by decide⟩

/-- Quotients 1 (element size 1000), 1024, and the refused 341 and 0 (R116). -/
theorem witness_InitWithStaticBacking :
    let s := State.resetOf { backing := .static, fixedLength := 1024, maxCap := 1 }
    s.port = .K ∧ s.alive = false ∧ s.pXfer = none ∧ s.cXfer = none ∧ s.build.Valid ∧ s.build.backing = .static ∧
    (8 : Word) ≠ 0 ∧ (1000 : Word) ≠ 0 ∧ (1 : Word) ≠ 0 ∧ (3 : Word) ≠ 0 ∧ (1025 : Word) ≠ 0 ∧
    s.build.fixedLength / (1000 : Word).toNat = 2 ^ 0 ∧ s.build.fixedLength / (1 : Word).toNat = 2 ^ 10 ∧
    (∀ n, s.build.fixedLength / (3 : Word).toNat ≠ 2 ^ n) ∧ (∀ n, s.build.fixedLength / (1025 : Word).toNat ≠ 2 ^ n) := by
  refine ⟨rfl, rfl, rfl, rfl, ⟨by decide, by decide, 0, by decide, by decide⟩, rfl, by decide, by decide, by decide, by decide,
    by decide, by decide, by decide, fun n => ?_, fun n => ?_⟩
  · have h : isPow2 341 = false := by decide
    intro e
    rw [(isPow2_iff 341).2 ⟨n, e⟩] at h
    cases h
  · exact (Nat.two_pow_pos n).ne

theorem witness_InitChecksItsArguments :
    State.reset.port = .K ∧ ((0 : Word) = 0 ∨ (1 : Word) = 0) ∧ ((8 : Word) = 0 ∨ (0 : Word) = 0) ∧ State.reset.alive = false ∧
    State.reset.pXfer = none ∧ State.reset.cXfer = none ∧ full8.port = .K ∧ full8.alive = true := by decide

theorem witness_LifecycleRefusedInFlight :
    (full8.port = .K ∧ full8.alive = true) ∧ ((mid 0 0 .read).port = .K ∧ (mid 0 0 .read).pXfer ≠ none) ∧
    ((mid 6 2 .peek).port = .K ∧ (mid 6 2 .peek).cXfer ≠ none) := by decide

theorem witness_DestroyResult :
    ((mid 0 0 .read).port = .K ∧ (mid 0 0 .read).pXfer ≠ none) ∧
    (full8.port = .K ∧ full8.pXfer = none ∧ full8.cXfer = none ∧ full8.alive = true) ∧
    (State.reset.port = .K ∧ State.reset.pXfer = none ∧ State.reset.cXfer = none ∧ State.reset.alive = false) := by decide

theorem witness_DeadBufferAnswersInvalidState :
    (on .P State.reset).alive = false ∧ (on .P State.reset).port = .P ∧ (on .C State.reset).alive = false ∧
    (on .C State.reset).port = .C ∧ State.reset.alive = false := by decide

theorem witness_QueriesAnswerFromTheRegisters :
    full8.alive = true ∧ (live 1 5 5 []).alive = true ∧ State.reset.alive = false := by decide

theorem witness_FullAndEmptyAreDistinguishable :
    (LiveInv full8 ∧ full8.full = true) ∧ (LiveInv (live 1 5 5 []) ∧ (live 1 5 5 []).empty = true) :=
  ⟨⟨full8_liveInv, by decide⟩, empty1_liveInv, by decide⟩

theorem witness_StatusOutputs : full8.alive = true ∧ (live 1 5 5 []).alive = true := by decide

/-- A READ's PUBLISH frees 2 bytes, and a WRITE's PUBLISH adds 6. -/
theorem witness_TheOwnersQuantityOnlyGrows :
    let c := turning [.port .C] (mid 0 2 .read)
    let p := turning [.port .P] (mid 6 0 .read)
    (Invariant c ∧ (∃ t, step c = .next t) ∧ c.turn = .port .C) ∧
    (Invariant p ∧ (∃ t, step p = .next t) ∧ p.turn = .port .P) :=
  ⟨⟨mid_invariant _ _ _ _ (by decide) (by decide), ⟨_, rfl⟩, rfl⟩, mid_invariant _ _ _ _ (by decide) (by decide), ⟨_, rfl⟩, rfl⟩

theorem witness_PowersOfTwo : 1 ≤ 1 ∧ 1 ≤ 2 ^ 0 ∧ 1 ≤ 2 ^ 31 + 1 ∧ 2 ^ 31 + 1 ≤ 2 ^ 32 := by decide

theorem witness_OffsetMapper :
    (0 ≤ 31 ∧ (0 : Word).toNat = 2 ^ 0 - 1) ∧ (31 ≤ 31 ∧ (0x7FFFFFFF : Word).toNat = 2 ^ 31 - 1) := by decide

/-- T-O8, the whole buffer: `n1 = 5`, with `k` on each side of the boundary, and T-O12, nothing. -/
theorem witness_TwoChunkSplit :
    (3 ≤ 31 ∧ (8 : Word).toNat = 2 ^ 3 ∧ (7 : Word).toNat = 2 ^ 3 - 1 ∧ (8 : Word) ≤ 8 ∧ (0 : Word) < 8 ∧
      4 < (chunk1 8 7 3 8).toNat ∧ (chunk1 8 7 3 8).toNat ≤ 5 ∧ 5 < (8 : Word).toNat) ∧ (0 : Word) ≤ 8 := by decide

/-- Something to move (the free space exactly), nothing asked for, and a full buffer. -/
theorem witness_WriteSample :
    let s := on .P (live 8 6 0 [])
    (s.port = .P ∧ s.alive = true ∧ s.pXfer = none ∧ s.available ≤ s.capacity ∧
      min (2 : Word).toNat (s.capacity.toNat - (s.writeCursor - s.readCursor).toNat) ≠ 0 ∧
      min (0 : Word).toNat (s.capacity.toNat - (s.writeCursor - s.readCursor).toNat) = 0) ∧
    ((on .P full8).port = .P ∧ (on .P full8).alive = true ∧ (on .P full8).pXfer = none ∧ full8.available ≤ full8.capacity ∧
      min (1 : Word).toNat (full8.capacity.toNat - (full8.writeCursor - full8.readCursor).toNat) = 0) := by decide

theorem witness_ReadAndPeekSample :
    let e := on .C (live 1 5 5 [])
    ((on .C full8).port = .C ∧ (on .C full8).alive = true ∧ (on .C full8).cXfer = none ∧
      min (0xFFFFFFFF : Word).toNat (full8.writeCursor - full8.readCursor).toNat ≠ 0) ∧
    (e.port = .C ∧ e.alive = true ∧ e.cXfer = none ∧ min (1 : Word).toNat (e.writeCursor - e.readCursor).toNat = 0) := by decide

/-- The last byte of the WRITE. -/
theorem witness_StoreStep :
    LiveInv (mid 5 0 .read) ∧ ({ base := 7, eff := 6, i := 5 } : WriteXfer).i < ({ base := 7, eff := 6, i := 5 } : WriteXfer).eff :=
  ⟨mid_liveInv _ _ _, by decide⟩

theorem witness_PublishStepOfWrite :
    ({ base := 0xFFFFFFFE, eff := 5, i := 5 } : WriteXfer).i = ({ base := 0xFFFFFFFE, eff := 5, i := 5 } : WriteXfer).eff := by
  decide

/-- The last byte of the READ. -/
theorem witness_LoadStep :
    LiveInv (mid 0 1 .read) ∧
    ({ kind := .read, base := 5, eff := 2, i := 1 } : ReadXfer).i < ({ kind := .read, base := 5, eff := 2, i := 1 } : ReadXfer).eff :=
  ⟨mid_liveInv _ _ _, by decide⟩

theorem witness_PublishStepOfReadAndPeek :
    let r : ReadXfer := { kind := .read, base := 0xFFFFFFFE, eff := 5, i := 5 }
    let k : ReadXfer := { kind := .peek, base := 5, eff := 2, i := 2 }
    (r.i = r.eff ∧ r.kind = .read) ∧ (k.i = k.eff ∧ k.kind = .peek) := by decide

/-- Each port in COPY with its own commands asked for, and a query, which is answered all the same. -/
theorem witness_CommandsStopOnlyOnABusyPort :
    (mid 0 0 .read).alive = true ∧ ((on .P (mid 0 0 .read)).port = .P ∧ (on .P (mid 0 0 .read)).pXfer ≠ none) ∧
    ((on .C (mid 0 0 .read)).port = .C ∧ (on .C (mid 0 0 .read)).cXfer ≠ none) ∧
    ∃ t, exec .available (on .C (mid 0 0 .read)) = .next t := ⟨rfl, by decide, by decide, _, rfl⟩

/-- An index one past the end, an offset that does not exist (`MASK` is not `CAPACITY - 1`), and the last index in range. -/
theorem witness_CopyStepsStopOnlyOutOfRange :
    let bad : State := { live 8 0 0 [] with mask := 15 }
    ((6 : Word) < 7 ∧ (2 : Word) < 3) ∧ ((0 : Word) < 1 ∧ bad.capacity ≤ off bad.mask 8 0) ∧
    ((6 : Word) ≤ 6 ∧ (5 : Word) < 6 ∧ off full8.mask 7 5 < full8.capacity) := by decide

theorem witness_WriteRunsAsItsFunction :
    let s := on .P (live 8 0xFFFFFFFE 0xFFFFFFFE [])
    Invariant s ∧ s.port = .P ∧ s.alive = true ∧ s.pXfer = none ∧ s.writeEff 5 ≠ 0 ∧ s.writeEff 0 = 0 :=
  ⟨quiet_invariant _ (by decide) empty8_liveInv, rfl, rfl, rfl, by decide, by decide⟩

theorem witness_ReadAndPeekRunAsTheirFunctions :
    let s := on .C full8
    Invariant s ∧ s.port = .C ∧ s.alive = true ∧ s.cXfer = none ∧ s.readEff 0xFFFFFFFF ≠ 0 ∧ s.readEff 0 = 0 :=
  ⟨quiet_invariant _ (by decide) full8_liveInv, rfl, rfl, rfl, by decide, by decide⟩

/-- A WRITE that straddles the boundary into a buffer that holds one byte (offset 5), at its last index and beyond it. -/
theorem witness_WriteStoresEveryByteInItsPlace :
    let s := live 8 6 5 [(5, 0xA0)]
    LiveInv s ∧ 6 < (s.writeEff 0xFFFFFFFF).toNat ∧ (s.writeEff 0xFFFFFFFF).toNat ≤ 7 ∧ 0 < s.available.toNat ∧
    (∀ k, k < (s.writeEff 0xFFFFFFFF).toNat → 5 ≠ (s.writeCursor.toNat + k) % s.capacity.toNat) :=
  ⟨one8_liveInv, by decide, by decide, by decide, by decide⟩

theorem witness_TransfersActOnTheContents : LiveInv full8 ∧ LiveInv (live 1 5 5 []) := ⟨full8_liveInv, empty1_liveInv⟩

/-- The length is `Unused` exactly and the cells straddle the boundary, in an empty buffer and in one that holds a byte. -/
theorem witness_RoundTrip :
    (LiveInv (live 8 0xFFFFFFFE 0xFFFFFFFE []) ∧ (8 : Word) ≤ (live 8 0xFFFFFFFE 0xFFFFFFFE []).unusedBytes ∧
      (live 8 0xFFFFFFFE 0xFFFFFFFE []).empty = true) ∧
    (LiveInv (live 8 6 5 [(5, 0xA0)]) ∧ (7 : Word) ≤ (live 8 6 5 [(5, 0xA0)]).unusedBytes) :=
  ⟨⟨empty8_liveInv, by decide, by decide⟩, one8_liveInv, by decide⟩

theorem witness_PeekIsIdempotent : LiveInv full8 ∧ LiveInv (live 8 6 5 [(5, 0xA0)]) := ⟨full8_liveInv, one8_liveInv⟩

theorem witness_FullAndEmptyBoundary :
    (LiveInv (live 1 5 5 []) ∧ (live 1 5 5 []).unusedBytes ≤ 1) ∧ (LiveInv full8 ∧ full8.available ≤ 8) :=
  ⟨⟨empty1_liveInv, by decide⟩, full8_liveInv, by decide⟩

/-- The smallest and the largest `MAX_CAP`. -/
theorem witness_ResetMeetsTheInvariant :
    Build.Valid { backing := .dynamic, fixedLength := 1, maxCap := 1 } ∧
    Build.Valid { backing := .static, fixedLength := 0xFFFFFFFF, maxCap := 2 ^ 31 } :=
  ⟨⟨by decide, by decide, 0, by decide, by decide⟩, by decide, by decide, 31, by decide, by decide⟩

theorem witness_EveryStepKeepsTheInvariant :
    let s := turning [.port .P] (mid 5 1 .read)
    Invariant s ∧ ∃ t, step s = .next t := ⟨mid_invariant _ _ _ _ (by decide) (by decide), _, rfl⟩

theorem witness_NoStepStops : Invariant (turning [.port .C] (mid 6 2 .peek)) :=
  mid_invariant _ _ _ _ (by decide) (by decide)

/-- One state for each clause: both PUBLISHes, a STORE, a LOAD, a step of K, the reset input. -/
theorem witness_StepsActOnTheContents :
    (let s := turning [.port .P] (mid 6 0 .read)
     Invariant s ∧ (∃ t, step s = .next t) ∧ s.turn = .port .P ∧ s.pXfer = some { base := 7, eff := 6, i := 6 }) ∧
    (let s := turning [.port .C] (mid 0 2 .read)
     Invariant s ∧ (∃ t, step s = .next t) ∧ s.turn = .port .C ∧ s.cXfer = some { kind := .read, base := 5, eff := 2, i := 2 }) ∧
    (let s := turning [.port .P] (mid 5 0 .read)
     Invariant s ∧ (∃ t, step s = .next t) ∧ s.turn = .port .P ∧ ∀ x, s.pXfer = some x → x.i ≠ x.eff) ∧
    (let s := turning [.port .C] (mid 0 2 .peek)
     Invariant s ∧ (∃ t, step s = .next t) ∧ s.turn = .port .C ∧ ∀ y, s.cXfer = some y → y.i ≠ y.eff ∨ y.kind = .peek) ∧
    (let s := turning [.port .K] (mid 0 0 .read)
     Invariant s ∧ (∃ t, step s = .next t) ∧ s.turn = .port .K) ∧
    (let s := turning [.reset] (mid 3 1 .read)
     Invariant s ∧ (∃ t, step s = .next t) ∧ s.turn = .reset) := by
  refine ⟨⟨mid_invariant _ _ _ _ (by decide) (by decide), ⟨_, rfl⟩, rfl, rfl⟩,
    ⟨mid_invariant _ _ _ _ (by decide) (by decide), ⟨_, rfl⟩, rfl, rfl⟩,
    ⟨mid_invariant _ _ _ _ (by decide) (by decide), ⟨_, rfl⟩, rfl, fun x hx => ?_⟩,
    ⟨mid_invariant _ _ _ _ (by decide) (by decide), ⟨_, rfl⟩, rfl, fun y hy => ?_⟩,
    ⟨mid_invariant _ _ _ _ (by decide) (by decide), ⟨_, rfl⟩, rfl⟩,
    ⟨mid_invariant _ _ _ _ (by decide) (by decide), ⟨_, rfl⟩, rfl⟩⟩
  · cases hx; decide
  · cases hy; exact .inr rfl

/-- Both PUBLISHes in a row: 6 bytes enter and 2 leave. -/
theorem witness_TheStreamIsFirstInFirstOut :
    let s := turning [.port .P, .port .C] (mid 6 2 .read)
    Invariant s ∧ s.alive = true ∧ (streamRun 2 s).map (fun r => r.2) = some (midData, [0xA0, 0xA1]) :=
  ⟨mid_invariant _ _ _ _ (by decide) (by decide), rfl, by decide⟩

theorem witness_OneResponseForEachCommand :
    let s := turning [.port .P] (mid 6 0 .read)
    (∃ t, step s = .next t) ∧ s.turn ≠ .reset := ⟨⟨_, rfl⟩, by decide⟩

/-- The last STORE and the PUBLISH, with the consumer in between. -/
theorem witness_WriteReachesItsResponse :
    let ts : List Turn := [.port .P, .port .C, .port .K, .port .P, .port .C]
    let s := turning (ts ++ [.reset]) (mid 5 1 .read)
    Invariant s ∧ s.pXfer = some { base := 7, eff := 6, i := 5 } ∧ s.turns = ts ++ [.reset] ∧ Turn.reset ∉ ts ∧
    ts.count (.port .P) = (6 : Word).toNat - (5 : Word).toNat + 1 :=
  ⟨mid_invariant _ _ _ _ (by decide) (by decide), rfl, rfl, by decide, by decide⟩

/-- The last LOAD and the PUBLISH, with the producer in between. -/
theorem witness_ReadAndPeekReachTheirResponse :
    let ts : List Turn := [.port .C, .port .P, .port .C]
    let s := turning (ts ++ []) (mid 5 1 .peek)
    Invariant s ∧ s.cXfer = some { kind := .peek, base := 5, eff := 2, i := 1 } ∧ s.turns = ts ++ [] ∧ Turn.reset ∉ ts ∧
    ts.count (.port .C) = (2 : Word).toNat - (1 : Word).toNat + 1 :=
  ⟨mid_invariant _ _ _ _ (by decide) (by decide), rfl, rfl, by decide, by decide⟩

/-- The two transfers fill the buffer between them: the WRITE's last byte and the READ's first are neighbours. -/
theorem witness_NoCellIsStoredAndLoaded :
    let s := mid 0 0 .read
    Invariant s ∧ s.pXfer = some { base := 7, eff := 6, i := 0 } ∧ s.cXfer = some { kind := .read, base := 5, eff := 2, i := 0 } ∧
    (5 : Word) < 6 ∧ (1 : Word) < 2 := ⟨mid_invariant [] _ _ _ (by decide) (by decide), rfl, rfl, by decide, by decide⟩

theorem witness_StoreAndLoadCommute :
    let s := mid 5 1 .read
    Invariant s ∧ s.pXfer = some { base := 7, eff := 6, i := 5 } ∧ s.cXfer = some { kind := .read, base := 5, eff := 2, i := 1 } ∧
    (5 : Word) < 6 ∧ (1 : Word) < 2 := ⟨mid_invariant [] _ _ _ (by decide) (by decide), rfl, rfl, by decide, by decide⟩

/-- One step for each way a cursor moves: both PUBLISHes, a DESTROY of a full buffer, the reset input. -/
theorem witness_EachCursorHasOneWriter :
    (after (step (turning [.port .P] (mid 6 0 .read)))).map (fun t => t.writeCursor) = some 13 ∧
    (after (step (turning [.port .C] (mid 0 2 .read)))).map (fun t => t.readCursor) = some 7 ∧
    (after (step (turning [.port .K] (offering .K { word := 0x020000000000000000#72, data := [] } full8)))).map
      (fun t => (t.writeCursor, t.readCursor)) = some (0, 0) ∧
    (after (step (turning [.reset] (mid 0 0 .read)))).map (fun t => (t.writeCursor, t.readCursor)) = some (0, 0) := by decide

/-- INIT 8, 1 from reset changes the three registers; a STORE changes the cells; the reset input clears the registers. -/
theorem witness_OnlyInitConfiguresTheBuffer :
    (after (step (State.reset.withFetchWord 72 0x010000000100000008))).map (fun t => (t.capacity, t.mask, t.elementSize)) =
      some (8, 7, 1) ∧
    (after (step (turning [.port .P] { mid 0 0 .read with storage := [(5, 0xA0), (6, 0xA1)] }))).map (fun t => t.storage) =
      some [(5, 0xA0), (6, 0xA1), (7, 0xD0)] ∧
    (after (step (turning [.reset] full8))).map (fun t => t.capacity) = some 0 := by decide

/-- A reserved word, a READ on port K, and a WRITE on port P of a buffer that is not alive. -/
theorem witness_ErrorsChangeNothing :
    let r : Response := { status := .illegalCommand, value := 0 }
    let e : Response := { status := .invalidState, value := 0 }
    ((∃ t, runCommand 0x0B0000000000000000#72 full8 = .next t ∧ (t.chan full8.port).rsp = (full8.chan full8.port).rsp ++ [r]) ∧
      (∃ t, runCommand 0x040000000000000001#72 full8 = .next t ∧ (t.chan full8.port).rsp = (full8.chan full8.port).rsp ++ [r]) ∧
      full8.port = .K ∧ r.status ≠ .ok) ∧
    ((∃ t, runCommand 0x030000000000000001#72 (on .P State.reset) = .next t ∧
        (t.chan .P).rsp = ((on .P State.reset).chan .P).rsp ++ [e]) ∧
      (on .P State.reset).pXfer = none ∧ e.status ≠ .ok) :=
  ⟨⟨⟨_, rfl, rfl⟩, ⟨_, rfl, rfl⟩, rfl, by decide⟩, ⟨_, rfl, rfl⟩, rfl, by decide⟩

theorem witness_PortsDoNotDisturbEachOther :
    (∃ t, step (turning [.port .K] (mid 5 1 .read)) = .next t) ∧ (turning [.port .K] (mid 5 1 .read)).turn = .port .K ∧
    (∃ t, step (turning [.port .P] (mid 5 1 .read)) = .next t) ∧ (turning [.port .P] (mid 5 1 .read)).turn = .port .P ∧
    (∃ t, step (turning [.port .C] (mid 5 1 .read)) = .next t) ∧ (turning [.port .C] (mid 5 1 .read)).turn = .port .C :=
  ⟨⟨_, rfl⟩, rfl, ⟨_, rfl⟩, rfl, ⟨_, rfl⟩, rfl⟩

/-- Each of the eight commands gives a next state on a full buffer, with its length at both ends of its range. -/
theorem witness_SampleAndQueryFrame :
    (∃ t, exec (.write 0) (on .P full8) = .next t) ∧ (∃ t, exec (.read 0xFFFFFFFF) (on .C full8) = .next t) ∧
    (∃ t, exec (.peek 0xFFFFFFFF) (on .C full8) = .next t) ∧ (∃ t, exec .capacity full8 = .next t) ∧
    (∃ t, exec .available full8 = .next t) ∧ (∃ t, exec .unused full8 = .next t) ∧ (∃ t, exec .isEmpty full8 = .next t) ∧
    (∃ t, exec .isFull full8 = .next t) :=
  ⟨⟨_, rfl⟩, ⟨_, rfl⟩, ⟨_, rfl⟩, ⟨_, rfl⟩, ⟨_, rfl⟩, ⟨_, rfl⟩, ⟨_, rfl⟩, ⟨_, rfl⟩⟩

theorem witness_LifecycleFrame :
    (∃ t, exec (.init 65536 1) State.reset = .next t) ∧ (∃ t, exec .destroy full8 = .next t) := ⟨⟨_, rfl⟩, _, rfl⟩

end Sys2Proof.Tests
end

