-- ==== Sys2Proof/Proofs/PowersOfTwo.lean ====
section
/-! PROOF. `ispow2` and `npot` meet R15 and R16, from the arithmetic laws of Laws/Operands.lean. -/

namespace Sys2Proof.Proofs
open Sys2Proof.Machine

/-- Settles O21: the laws of `isPow2` and `npot` are the clauses of R15 and R16. -/
theorem powersOfTwo : Obligations.PowersOfTwo := by
  unfold Obligations.PowersOfTwo
  exact ⟨isPow2_iff, fun x _ => ⟨npot_pow2 x, le_npot x, fun _ => npot_le⟩⟩

end Sys2Proof.Proofs
end

section
/-! SUPPORT. What the shared operations, the commands and their SAMPLE steps leave unchanged, in the terms of Safety.lean. -/

namespace Sys2Proof.Machine

variable (s t : State) (q : Port) (st : Status) (v : Word) (c : CmdIn) (rest : List CmdIn)

/-! ### The shared operations -/

theorem State.sameRegisters_respond : SameRegisters s (s.respond q st v) := by constructor <;> simp

theorem State.sameStorage_respond : SameStorage s (s.respond q st v) := ⟨by simp, by simp⟩

theorem State.sameTransfers_respond : SameTransfers s (s.respond q st v) := ⟨by simp, by simp⟩

theorem State.sameData_respond : SameData s (s.respond q st v) := ⟨by simp, by simp, by simp⟩

theorem State.sameBook_respond : SameBook s (s.respond q st v) := by constructor <;> simp

/-- Taking a command word in a turn of its port leaves the six registers as they are (R81). -/
theorem State.sameRegisters_accept : SameRegisters s (s.spendTurn.accept q c rest) := by constructor <;> simp

/-- Taking a command word in a turn of its port leaves every cell as it is (R81). -/
theorem State.sameStorage_accept : SameStorage s (s.spendTurn.accept q c rest) :=
  ⟨by simp, fun a => by simp [State.byteAt]⟩

/-- Only port P brings source bytes with its command (R55). -/
theorem State.accept_srcByte_of_ne {q : Port} (h : q ≠ .P) (k : Nat) : (s.accept q c rest).srcByte k = s.srcByte k := by
  simp [State.srcByte, h]

variable {s t}

theorem SameRegisters.trans {u : State} (h : SameRegisters s t) (k : SameRegisters t u) : SameRegisters s u :=
  ⟨k.alive.trans h.alive, k.capacity.trans h.capacity, k.elementSize.trans h.elementSize, k.mask.trans h.mask,
    k.writeCursor.trans h.writeCursor, k.readCursor.trans h.readCursor⟩

theorem SameStorage.trans {u : State} (h : SameStorage s t) (k : SameStorage t u) : SameStorage s u :=
  ⟨k.storage.trans h.storage, fun a => (k.bytes a).trans (h.bytes a)⟩

theorem SameTransfers.trans {u : State} (h : SameTransfers s t) (k : SameTransfers t u) : SameTransfers s u :=
  ⟨k.pXfer.trans h.pXfer, k.cXfer.trans h.cXfer⟩

theorem SameData.trans {u : State} (h : SameData s t) (k : SameData t u) : SameData s u :=
  ⟨fun n => (k.src n).trans (h.src n), k.srcIdx.trans h.srcIdx, k.dst.trans h.dst⟩

theorem SameBook.trans {u : State} (h : SameBook s t) (k : SameBook t u) : SameBook s u :=
  ⟨k.build.trans h.build, k.port.trans h.port, k.turns.trans h.turns, k.tick.trans h.tick⟩

/-! ### What the registers and the cells determine -/

theorem SameRegisters.available_eq (r : SameRegisters s t) : t.available = s.available := by
  simp only [State.available, r.writeCursor, r.readCursor]

theorem SameRegisters.logicalByte_eq (r : SameRegisters s t) (m : SameStorage s t) (d : Word) (k : Nat) :
    t.logicalByte d k = s.logicalByte d k := by
  simp only [State.logicalByte, r.mask, m.bytes]

theorem SameRegisters.contents_eq (r : SameRegisters s t) (m : SameStorage s t) : t.contents = s.contents := by
  simp only [State.contents, r.available_eq, r.readCursor, funext (r.logicalByte_eq m s.readCursor)]

theorem SameRegisters.deliveries_eq (r : SameRegisters s t) (m : SameStorage s t) (d : Word) (n : Nat) :
    t.deliveries d n = s.deliveries d n := by
  simp only [State.deliveries, r.logicalByte_eq m]

/-- A buffer whose cursors are equal holds nothing (R167). -/
theorem State.available_eq_zero (h : s.writeCursor = s.readCursor) : s.available = 0 := by
  simp [State.available, avail, h]

theorem State.contents_eq_nil (h : s.writeCursor = s.readCursor) : s.contents = [] := by
  simp [State.contents, State.available_eq_zero h]

/-! ### The commands -/

/-- What a command taken by port `q` can do to the registers and the cells: nothing, or, on port K, construct a buffer or
destroy it. -/
inductive CommandFrame (q : Port) (s t : State) : Prop
  | kept (registers : SameRegisters s t) (storage : SameStorage s t)
  | constructed (port : q = .K) (dead : s.alive = false) (live : t.alive = true) (writeCursor : t.writeCursor = 0)
    (readCursor : t.readCursor = 0)
  | destroyed (port : q = .K) (writeCursor : t.writeCursor = 0) (readCursor : t.readCursor = 0)
    (capacity : t.capacity = s.capacity) (elementSize : t.elementSize = s.elementSize) (mask : t.mask = s.mask)
    (storage : t.storage = s.storage)

theorem CommandEffect.frame (e : CommandEffect s t) : CommandFrame s.port s t := by
  cases e with
  | answered st v => exact .kept (s.sameRegisters_respond _ _ _) (s.sameStorage_respond _ _ _)
  | writeBegun | readBegun => exact .kept ⟨rfl, rfl, rfl, rfl, rfl, rfl⟩ ⟨rfl, fun _ => rfl⟩
  | constructed a b cap hp ha => exact .constructed hp ha (by simp) (by simp) (by simp)
  | destroyed hp => exact .destroyed hp (by simp) (by simp) (by simp) (by simp) (by simp) (by simp)

theorem CommandEffect.build_eq (e : CommandEffect s t) : t.build = s.build := by
  cases e <;> simp

/-- The frame of a command seen from the state in which its port takes the turn. -/
theorem CommandEffect.frame_of_turn {q : Port} {c : CmdIn} {rest : List CmdIn}
    (e : CommandEffect (s.spendTurn.accept q c rest) t) : CommandFrame q s t := by
  have hr := s.sameRegisters_accept q c rest
  have hm := s.sameStorage_accept q c rest
  have hf := e.frame
  rw [State.accept_port] at hf
  cases hf with
  | kept r m => exact .kept (hr.trans r) (hm.trans m)
  | constructed hp ha hl hw hc => exact .constructed hp (hr.alive ▸ ha) hl hw hc
  | destroyed hp hw hc h1 h2 h3 h4 =>
    exact .destroyed hp hw hc (h1.trans hr.capacity) (h2.trans hr.elementSize) (h3.trans hr.mask) (h4.trans hm.storage)

/-- The build parameters are written by no step (R42). -/
theorem step_build (h : step s = .next t) : t.build = s.build := by
  cases step_effect h with
  | command q c rest t turn free cmds run effect => simpa using effect.build_eq
  | _ => simp

/-- How the cursors can move in a step (R24, R25): not at all, a WRITE's PUBLISH, a READ's PUBLISH, or both cleared. -/
theorem step_cursors (h : step s = .next t) :
    (t.writeCursor = s.writeCursor ∧ t.readCursor = s.readCursor) ∨
    (∃ x, s.turn = .port .P ∧ s.pXfer = some x ∧ x.i = x.eff ∧ t.writeCursor = x.base + x.eff ∧
      t.readCursor = s.readCursor) ∨
    (∃ y, s.turn = .port .C ∧ s.cXfer = some y ∧ y.i = y.eff ∧ y.kind = .read ∧ t.readCursor = y.base + y.eff ∧
      t.writeCursor = s.writeCursor) ∨
    ((s.turn = .port .K ∨ s.turn = .reset) ∧ t.writeCursor = 0 ∧ t.readCursor = 0) := by
  cases step_effect h with
  | reset turn => exact .inr (.inr (.inr ⟨.inr turn, rfl, rfl⟩))
  | stored | loaded | idle => exact .inl ⟨rfl, rfl⟩
  | peekEnded => exact .inl (by simp)
  | writePublished x turn busy index => exact .inr (.inl ⟨x, turn, busy, index, by simp⟩)
  | readPublished y turn busy index kind => exact .inr (.inr (.inl ⟨y, turn, busy, index, kind, by simp⟩))
  | command q c rest t turn free cmds run effect =>
    cases effect.frame_of_turn with
    | kept r => exact .inl ⟨r.writeCursor, r.readCursor⟩
    | constructed hq _ _ hw hr => exact .inr (.inr (.inr ⟨.inl (hq ▸ turn), hw, hr⟩))
    | destroyed hq hw hr => exact .inr (.inr (.inr ⟨.inl (hq ▸ turn), hw, hr⟩))

/-- How the configuration and the cells can change in a step (R21, R29): not at all, the configuration cleared by the reset
input, a buffer constructed, or a cell stored to. -/
theorem step_configuration (h : step s = .next t) :
    ((t.capacity = s.capacity ∧ t.mask = s.mask ∧ t.elementSize = s.elementSize) ∧ t.storage = s.storage) ∨
    (s.turn = .reset ∧ t.storage = s.storage) ∨
    (s.turn = .port .K ∧ s.alive = false ∧ t.alive = true) ∨
    ((t.capacity = s.capacity ∧ t.mask = s.mask ∧ t.elementSize = s.elementSize) ∧ s.turn = .port .P ∧ s.pXfer ≠ none) := by
  cases step_effect h with
  | reset turn => exact .inr (.inl ⟨turn, rfl⟩)
  | stored x turn busy => exact .inr (.inr (.inr ⟨⟨rfl, rfl, rfl⟩, turn, by simp [busy]⟩))
  | loaded | idle => exact .inl ⟨⟨rfl, rfl, rfl⟩, rfl⟩
  | writePublished | readPublished | peekEnded => exact .inl (by simp)
  | command q c rest t turn free cmds run effect =>
    cases effect.frame_of_turn with
    | kept r m => exact .inl ⟨⟨r.capacity, r.mask, r.elementSize⟩, m.storage⟩
    | constructed hq ha hl => exact .inr (.inr (.inl ⟨hq ▸ turn, ha, hl⟩))
    | destroyed _ _ _ hc he hm hs => exact .inl ⟨⟨hc, hm, he⟩, hs⟩

/-- Every next state of WRITE, on any port, busy or not (R61, R88, R186). -/
theorem execWrite_next {len : Word} (h : execWrite len s = .next t) :
    (∃ st v, t = s.respond s.port st v) ∨ ∃ x, t = { s with pXfer := some x } := by
  rcases onPorts_cases h with ⟨_, h⟩ | ⟨_, h⟩
  · rcases whenAlive_cases h with ⟨_, h⟩ | ⟨_, h⟩
    · cases hx : s.pXfer with
      | some x => simp [pSample, hx] at h
      | none => rcases pSample_cases h hx with ⟨_, h⟩ | ⟨_, h⟩ <;> cases h <;> simp
    · cases h; exact .inl ⟨_, _, rfl⟩
  · cases h; exact .inl ⟨_, _, rfl⟩

/-- Every next state of READ and PEEK, on any port, busy or not (R62, R88, R186). -/
theorem readOrPeek_next {kind : ReadKind} {len : Word}
    (h : onPorts [.C] s (fun s => whenAlive s (cSample kind len)) = .next t) :
    (∃ st v, t = s.respond s.port st v) ∨ ∃ y, t = { s with cXfer := some y } := by
  rcases onPorts_cases h with ⟨_, h⟩ | ⟨_, h⟩
  · rcases whenAlive_cases h with ⟨_, h⟩ | ⟨_, h⟩
    · cases hy : s.cXfer with
      | some y => simp [cSample, hy] at h
      | none => rcases cSample_cases h hy with ⟨_, h⟩ | ⟨_, h⟩ <;> cases h <;> simp
    · cases h; exact .inl ⟨_, _, rfl⟩
  · cases h; exact .inl ⟨_, _, rfl⟩

/-- Every next state of a query (R68). -/
theorem query_next {value : State → Word} (h : query value s = .next t) : ∃ st v, t = s.respond s.port st v := by
  rw [query_eq] at h
  cases h
  split <;> exact ⟨_, _, rfl⟩

end Sys2Proof.Machine

namespace Sys2Proof.Proofs
open Sys2Proof.Machine

/-- Settles O9: every clause is the value that `State.resetOf` writes out. -/
theorem resetState : Obligations.ResetState := by
  unfold Obligations.ResetState
  intro b
  exact ⟨rfl, rfl, rfl, rfl, rfl, rfl, Memory.load?_nil, rfl, rfl, fun q => by cases q <;> rfl, rfl, rfl, rfl⟩

/-- Settles O53: such a command gives a response, or sets its own port's transfer, and does nothing else. -/
theorem sampleAndQueryFrame : Obligations.SampleAndQueryFrame := by
  unfold Obligations.SampleAndQueryFrame
  intro i s t len hi h
  have cases_of_next : (∃ st v, t = s.respond s.port st v) ∨ (i = .write len ∧ ∃ x, t = { s with pXfer := some x }) ∨
      ((i = .read len ∨ i = .peek len) ∧ ∃ y, t = { s with cXfer := some y }) := by
    rcases hi with rfl | rfl | rfl | rfl | rfl | rfl | rfl | rfl
    · exact (execWrite_next h).imp_right fun hx => .inl ⟨rfl, hx⟩
    · exact (readOrPeek_next h).imp_right fun hy => .inr ⟨.inl rfl, hy⟩
    · exact (readOrPeek_next h).imp_right fun hy => .inr ⟨.inr rfl, hy⟩
    · exact .inl (query_next h)
    · exact .inl (query_next h)
    · exact .inl (query_next h)
    · exact .inl (query_next (value := fun s => boolValue s.empty) h)
    · exact .inl (query_next (value := fun s => boolValue s.full) h)
  rcases cases_of_next with ⟨st, v, rfl⟩ | ⟨hw, x, rfl⟩ | ⟨hr, y, rfl⟩
  · exact ⟨s.sameRegisters_respond _ _ _, s.sameStorage_respond _ _ _, s.sameData_respond _ _ _, s.sameBook_respond _ _ _,
      fun p hp => State.respond_chan_of_ne _ _ _ hp, by simp, fun _ => by simp, fun _ => by simp⟩
  · exact ⟨⟨rfl, rfl, rfl, rfl, rfl, rfl⟩, ⟨rfl, fun _ => rfl⟩, ⟨fun _ => rfl, rfl, rfl⟩, ⟨rfl, rfl, rfl, rfl⟩,
      fun _ _ => rfl, rfl, fun hn => absurd hw (hn len), fun _ => rfl⟩
  · exact ⟨⟨rfl, rfl, rfl, rfl, rfl, rfl⟩, ⟨rfl, fun _ => rfl⟩, ⟨fun _ => rfl, rfl, rfl⟩, ⟨rfl, rfl, rfl, rfl⟩,
      fun _ _ => rfl, rfl, fun _ => rfl, fun hn => (hr.elim (hn len).1 (hn len).2).elim⟩

/-- Settles O54: INIT and DESTROY answer, after writing registers and cells at most. -/
theorem lifecycleFrame : Obligations.LifecycleFrame := by
  unfold Obligations.LifecycleFrame
  intro i s t count size hi h
  obtain ⟨u, st, v, rfl, htransfers, hdata, hbook, hchan, hdestroy⟩ :
      ∃ u st v, t = State.respond u s.port st v ∧ SameTransfers s u ∧ SameData s u ∧ SameBook s u ∧ SameChannels s u ∧
        (i = .destroy → SameStorage s u ∧ u.capacity = s.capacity ∧ u.mask = s.mask ∧ u.elementSize = s.elementSize) := by
    rcases hi with rfl | rfl
    · rcases execInit_cases h with ⟨e, _, he⟩ | ⟨cap, _, _, _, _, _, _, he⟩ <;> cases he
      · exact ⟨s, _, _, rfl, ⟨rfl, rfl⟩, ⟨fun _ => rfl, rfl, rfl⟩, ⟨rfl, rfl, rfl, rfl⟩, fun _ => rfl, nofun⟩
      · exact ⟨s.construct cap size, _, _, rfl, ⟨rfl, rfl⟩, ⟨fun _ => rfl, rfl, rfl⟩, ⟨rfl, rfl, rfl, rfl⟩,
          fun q => s.construct_chan q cap size, nofun⟩
    · rcases execDestroy_cases h with ⟨e, he⟩ | ⟨_, _, _, he⟩ <;> cases he
      all_goals exact ⟨_, _, _, rfl, ⟨rfl, rfl⟩, ⟨fun _ => rfl, rfl, rfl⟩, ⟨rfl, rfl, rfl, rfl⟩, fun _ => rfl,
        fun _ => ⟨⟨rfl, fun _ => rfl⟩, rfl, rfl, rfl⟩⟩
  refine ⟨htransfers.trans (u.sameTransfers_respond _ _ _), hdata.trans (u.sameData_respond _ _ _),
    hbook.trans (u.sameBook_respond _ _ _), fun p hp => (State.respond_chan_of_ne _ _ _ hp).trans (hchan p),
    by simp [hchan s.port], fun hi => ?_⟩
  obtain ⟨hstorage, hcap, hmask, hsize⟩ := hdestroy hi
  exact ⟨hstorage.trans (u.sameStorage_respond _ _ _), by simpa, by simpa, by simpa⟩

/-- Settles O49: the four ways of `step_cursors`. -/
theorem eachCursorHasOneWriter : Obligations.EachCursorHasOneWriter := by
  unfold Obligations.EachCursorHasOneWriter
  intro s t h
  rcases step_cursors h with ⟨hw, hr⟩ | ⟨x, turn, busy, index, hw, hr⟩ | ⟨y, turn, busy, index, kind, hr, hw⟩ | cleared
  · exact ⟨fun hne => absurd hw hne, fun hne => absurd hr hne⟩
  · exact ⟨fun _ => .inl ⟨x, turn, busy, index, hw⟩, fun hne => absurd hr hne⟩
  · exact ⟨fun hne => absurd hw hne, fun _ => .inl ⟨y, turn, busy, index, kind, hr⟩⟩
  · exact ⟨fun _ => .inr cleared, fun _ => .inr cleared⟩

/-- Settles O50: the four ways of `step_configuration`. -/
theorem onlyInitConfiguresTheBuffer : Obligations.OnlyInitConfiguresTheBuffer := by
  unfold Obligations.OnlyInitConfiguresTheBuffer
  intro s t h
  refine ⟨step_build h, ?_⟩
  rcases step_configuration h with ⟨hc, hs⟩ | ⟨turn, hs⟩ | constructed | ⟨hc, stored⟩
  · exact ⟨fun hne => by simp [hc] at hne, fun hne => absurd hs hne⟩
  · exact ⟨fun _ => .inl turn, fun hne => absurd hs hne⟩
  · exact ⟨fun _ => .inr constructed, fun _ => .inl constructed⟩
  · exact ⟨fun hne => by simp [hc] at hne, fun _ => .inr stored⟩

end Sys2Proof.Proofs
end

section
/-! SUPPORT. Positions in the ring and the logical contents: what a store, an advanced write cursor and an advanced read
cursor do to them (R37, R52, R66). -/

namespace Sys2Proof.Machine

/-! ### Positions -/

/-- A position counted from an advanced cursor, counted from the cursor (R52). -/
theorem off_advance (mask c d : Word) (k : Nat) :
    off mask (c + d) (BitVec.ofNat 32 k) = off mask c (BitVec.ofNat 32 (d.toNat + k)) := by
  rw [← off_shift, BitVec.ofNat_toNat, BitVec.setWidth_eq]

/-- A position counted from the write cursor, counted from the read cursor (R37). -/
theorem State.off_writeCursor (s : State) (k : Nat) :
    off s.mask s.writeCursor (BitVec.ofNat 32 k) = off s.mask s.readCursor (BitVec.ofNat 32 (s.available.toNat + k)) := by
  rw [← off_advance, ← s.writeCursor_eq]

theorem State.logicalByte_advance (s : State) (c d : Word) (k : Nat) :
    s.logicalByte (c + d) k = s.logicalByte c (d.toNat + k) := by
  simp only [State.logicalByte, off_advance]

/-- Two positions of one capacity never share a cell (R66). -/
theorem LiveInv.off_ne {s : State} (h : LiveInv s) (c : Word) {j k : Nat} (hlt : j < k) (hk : k < s.capacity.toNat) :
    (off s.mask c (BitVec.ofNat 32 j)).toNat ≠ (off s.mask c (BitVec.ofNat 32 k)).toNat := by
  obtain ⟨n, hn, hc, hm⟩ := h.nat
  have := s.capacity.isLt
  exact Machine.off_ne (by omega) hm c (by omega) (by omega) hlt (by omega)

/-- A position of the window and a free position never share a cell (R66). -/
theorem LiveInv.window_ne_free {s : State} (h : LiveInv s) {j k : Nat} (hj : j < s.available.toNat)
    (hk : s.available.toNat + k < s.capacity.toNat) :
    (off s.mask s.readCursor (BitVec.ofNat 32 j)).toNat ≠ (off s.mask s.writeCursor (BitVec.ofNat 32 k)).toNat := by
  rw [s.off_writeCursor]
  exact h.off_ne _ (by omega) hk

/-! ### Bytes and contents -/

/-- What a cell reads as is fixed by what is stored in it, within one era (R29). -/
theorem State.byteAt_congr {s t : State} {a : Nat} (hl : Memory.load? t.storage a = Memory.load? s.storage a)
    (he : t.era = s.era) : t.byteAt a = s.byteAt a := by
  simp only [State.byteAt, hl, he]

theorem State.byteAt_of_load {s : State} {a : Nat} {v : Byte} (h : Memory.load? s.storage a = some v) : s.byteAt a = v := by
  simp [State.byteAt, h]

/-- Bytes behind the write cursor, once it has passed them, are appended to the contents (R37, R133). -/
theorem State.contents_append {s t : State} {n : Nat} {byte : Nat → Byte} (hrc : t.readCursor = s.readCursor)
    (havail : t.available.toNat = s.available.toNat + n)
    (old : ∀ k, k < s.available.toNat → t.logicalByte s.readCursor k = s.logicalByte s.readCursor k)
    (new : ∀ k, k < n → t.logicalByte s.readCursor (s.available.toNat + k) = byte k) :
    t.contents = s.contents ++ (List.range n).map byte := by
  simp only [State.contents, hrc, havail, List.range_add, List.map_append, List.map_map]
  congr 1 <;> apply List.map_congr_left <;> intro k hk <;> rw [List.mem_range] at hk
  · exact old k hk
  · exact new k hk

/-- Bytes that the read cursor has passed are gone from the contents (R37, R139). -/
theorem State.contents_drop {s t : State} {e : Word} (hrc : t.readCursor = s.readCursor + e)
    (havail : t.available.toNat = s.available.toNat - e.toNat)
    (same : ∀ c k, t.logicalByte c k = s.logicalByte c k) :
    t.contents = s.contents.drop e.toNat := by
  apply List.ext_getElem
  · simp [State.contents, havail]
  · intro k _ _
    simp [State.contents, same, hrc, State.logicalByte_advance]

/-- The bytes of the first deliveries are the oldest bytes (R138). -/
theorem State.deliveries_bytes (s : State) {n : Nat} (h : n ≤ s.available.toNat) :
    (s.deliveries s.readCursor n).map Prod.snd = s.contents.take n := by
  rw [State.contents, ← List.map_take, List.take_range, Nat.min_eq_left h]
  simp [State.deliveries]

end Sys2Proof.Machine

namespace Sys2Proof.Proofs
open Sys2Proof.Machine

/-- Settles O18: on a live buffer Available never exceeds `CAPACITY`, and `MASK` is one less. -/
theorem fullAndEmptyAreDistinguishable : Obligations.FullAndEmptyAreDistinguishable := by
  unfold Obligations.FullAndEmptyAreDistinguishable
  intro s h
  obtain ⟨n, _, hcap, hmask⟩ := h.nat
  have hpos : 0 < 2 ^ n := Nat.two_pow_pos n
  have hbound : s.available.toNat ≤ s.capacity.toNat := h.bound
  have hfull : s.full = true ↔ s.available = s.capacity := by
    rw [State.full, decide_eq_true_iff, BitVec.lt_def, ← BitVec.toNat_inj]
    omega
  have hempty : s.empty = true ↔ s.writeCursor = s.readCursor := beq_iff_eq
  refine ⟨hfull, hempty, ?_, ?_⟩
  · rintro ⟨hf, he⟩
    rw [← hfull.1 hf, State.available_eq_zero (hempty.1 he)] at hcap
    exact absurd hcap hpos.ne
  · rw [h.unused_toNat]
    omega

end Sys2Proof.Proofs
end

section
/-! PROOF. The invariant is kept: by what leaves the buffer as it is, by each step of a transfer, by INIT and by DESTROY, and
so by every step. -/

namespace Sys2Proof.Machine

variable {s t : State} {x : WriteXfer} {y : ReadXfer}

/-- A copy index below its end does not wrap when it advances (R32, R33). -/
theorem toNat_add_one_of_lt {a b : Word} (h : a < b) : (a + 1).toNat = a.toNat + 1 := by
  have hlt : a.toNat < b.toNat := h
  have := b.isLt
  rw [BitVec.toNat_add_of_lt (by simp; omega)]
  rfl

/-! ### What leaves the registers and the cells as they are -/

theorem LiveInv.congr (h : LiveInv s) (r : SameRegisters s t) (m : SameStorage s t) : LiveInv t where
  pow2   := by simpa only [r.capacity] using h.pow2
  maskEq := by simpa only [r.mask, r.capacity] using h.maskEq
  bound  := by simpa only [r.available_eq, r.capacity] using h.bound
  cells  := by simpa only [m.storage, r.capacity] using h.cells
  window := by simpa only [State.written, m.storage, r.mask, r.available_eq, r.readCursor] using h.window

theorem WriteInv.congr (h : WriteInv s x) (r : SameRegisters s t) (m : SameStorage s t)
    (src : ∀ k, t.srcByte k = s.srcByte k) : WriteInv t x where
  live   := r.alive.trans h.live
  base   := h.base.trans r.writeCursor.symm
  pos    := h.pos
  index  := h.index
  room   := by simpa only [r.available_eq, r.capacity] using h.room
  copied := by simpa only [m.storage, r.mask, src] using h.copied

theorem ReadInv.congr (h : ReadInv s y) (r : SameRegisters s t) (m : SameStorage s t) (hdst : t.dst = s.dst) :
    ReadInv t y where
  live      := r.alive.trans h.live
  base      := h.base.trans r.readCursor.symm
  pos       := h.pos
  index     := h.index
  inside    := by simpa only [r.available_eq] using h.inside
  delivered := by simpa only [hdst, r.deliveries_eq m] using h.delivered

/-- The source bytes matter only while port P is in COPY. -/
theorem Invariant.congr (h : Invariant s) (r : SameRegisters s t) (m : SameStorage s t) (f : SameTransfers s t)
    (hbuild : t.build = s.build) (hdst : t.dst = s.dst)
    (src : s.pXfer ≠ none → ∀ k, t.srcByte k = s.srcByte k) : Invariant t where
  build   := by simpa only [hbuild] using h.build
  memory  := by simpa only [m.storage] using h.memory
  live    := fun ha => (h.live (r.alive ▸ ha)).congr r m
  dead    := fun ha => by simpa only [r.writeCursor, r.readCursor, f.pXfer, f.cXfer] using h.dead (r.alive ▸ ha)
  writing := fun x hx => by
    rw [f.pXfer] at hx
    exact (h.writing x hx).congr r m (src (by simp [hx]))
  reading := fun y hy => (h.reading y (f.cXfer ▸ hy)).congr r m hdst

theorem Invariant.respond (h : Invariant s) (q : Port) (st : Status) (v : Word) : Invariant (s.respond q st v) :=
  h.congr (s.sameRegisters_respond q st v) (s.sameStorage_respond q st v) (s.sameTransfers_respond q st v) (by simp)
    (by simp) fun _ k => by simp

theorem Invariant.spendTurn (h : Invariant s) : Invariant s.spendTurn :=
  h.congr ⟨rfl, rfl, rfl, rfl, rfl, rfl⟩ ⟨rfl, fun _ => rfl⟩ ⟨rfl, rfl⟩ rfl rfl fun _ _ => rfl

theorem Invariant.accept {q : Port} (h : Invariant s) (free : s.IdleAt q) (c : CmdIn) (rest : List CmdIn) :
    Invariant (s.spendTurn.accept q c rest) :=
  h.congr (s.sameRegisters_accept q c rest) (s.sameStorage_accept q c rest) ⟨by simp, by simp⟩ (by simp) (by simp)
    fun busy k => State.accept_srcByte_of_ne _ _ _ (fun hq => busy (free.1 hq)) k

/-! ### Port P -/

theorem Invariant.writeBegun {len : Word} (h : Invariant s) (ha : s.alive = true) (he : s.writeEff len ≠ 0) :
    Invariant { s with pXfer := some { base := s.writeCursor, eff := s.writeEff len, i := 0 } } where
  build   := h.build
  memory  := h.memory
  live    := fun _ => (h.live ha).congr ⟨rfl, rfl, rfl, rfl, rfl, rfl⟩ ⟨rfl, fun _ => rfl⟩
  dead    := fun hd => absurd (ha.symm.trans hd) (by decide)
  writing := fun x hx => by
    cases hx
    have hroom : s.available.toNat + (s.writeEff len).toNat ≤ s.capacity.toNat := by
      have hbound : s.available.toNat ≤ s.capacity.toNat := (h.live ha).bound
      rw [(h.live ha).writeEff_toNat]
      omega
    exact ⟨ha, rfl, (BitVec.pos_iff_ne_zero _).2 he, Nat.zero_le _, hroom, fun k hk => absurd hk (Nat.not_lt_zero k)⟩
  reading := fun y hy => (h.reading y hy).congr ⟨rfl, rfl, rfl, rfl, rfl, rfl⟩ ⟨rfl, fun _ => rfl⟩ rfl

/-- The state after a STORE (R61). -/
def State.stored (s : State) (x : WriteXfer) : State :=
  { s with
    storage := Memory.store s.storage (off s.mask x.base x.i).toNat (s.srcByte x.i.toNat)
    srcIdx  := s.srcIdx ++ [x.i]
    pXfer   := some { x with i := x.i + 1 } }

/-- The cell a STORE writes holds no byte of the window and none of the WRITE's own earlier bytes (R66). -/
theorem WriteInv.cell_ne (w : WriteInv s x) (h : LiveInv s) (hi : x.i < x.eff) {k : Nat}
    (hk : k < s.available.toNat + x.i.toNat) :
    (off s.mask s.readCursor (BitVec.ofNat 32 k)).toNat ≠ (off s.mask x.base x.i).toNat := by
  have hroom := w.room
  have hlt : x.i.toNat < x.eff.toNat := hi
  have hcell : off s.mask x.base x.i = off s.mask s.readCursor (BitVec.ofNat 32 (s.available.toNat + x.i.toNat)) := by
    rw [← s.off_writeCursor, w.base, BitVec.ofNat_toNat, BitVec.setWidth_eq]
  rw [hcell]
  exact h.off_ne _ hk (by omega)

theorem WriteInv.load_stored (w : WriteInv s x) (h : LiveInv s) (hi : x.i < x.eff) {k : Nat}
    (hk : k < s.available.toNat + x.i.toNat) :
    Memory.load? (s.stored x).storage (off s.mask s.readCursor (BitVec.ofNat 32 k)).toNat =
      Memory.load? s.storage (off s.mask s.readCursor (BitVec.ofNat 32 k)).toNat :=
  Memory.load?_store_of_ne _ (w.cell_ne h hi hk) _

/-- A STORE leaves every byte of the window as it is (R66). -/
theorem WriteInv.logicalByte_stored (w : WriteInv s x) (h : LiveInv s) (hi : x.i < x.eff) {k : Nat}
    (hk : k < s.available.toNat) : (s.stored x).logicalByte s.readCursor k = s.logicalByte s.readCursor k :=
  State.byteAt_congr (w.load_stored h hi (by omega)) rfl

theorem LiveInv.stored (h : LiveInv s) (hcell : off s.mask x.base x.i < s.capacity) : LiveInv (s.stored x) where
  pow2   := h.pow2
  maskEq := h.maskEq
  bound  := h.bound
  cells  := fun a ha => by
    rw [State.stored, Memory.load?_store] at ha
    split at ha
    · next e => exact e ▸ hcell
    · exact h.cells a ha
  window := fun k hk => Memory.isSome_load?_store _ _ _ _ (h.window k hk)

theorem WriteInv.stored (w : WriteInv s x) (h : LiveInv s) (hi : x.i < x.eff) :
    WriteInv (s.stored x) { x with i := x.i + 1 } := by
  have hlt : x.i.toNat < x.eff.toNat := hi
  have hnext := toNat_add_one_of_lt hi
  refine ⟨w.live, w.base, w.pos, ?_, w.room, fun k hk => ?_⟩
  · show (x.i + 1).toNat ≤ x.eff.toNat
    omega
  · replace hk : k < (x.i + 1).toNat := hk
    show Memory.load? (s.stored x).storage (off s.mask x.base (BitVec.ofNat 32 k)).toNat = some (s.srcByte k)
    by_cases hki : k = x.i.toNat
    · subst hki
      simp [State.stored]
    · rw [w.base, s.off_writeCursor, w.load_stored h hi (by omega), ← s.off_writeCursor, ← w.base]
      exact w.copied k (by omega)

theorem ReadInv.stored (r : ReadInv s y) (w : WriteInv s x) (h : LiveInv s) (hi : x.i < x.eff) :
    ReadInv (s.stored x) y := by
  refine ⟨r.live, r.base, r.pos, r.index, r.inside, ?_⟩
  have hinside : y.eff.toNat ≤ s.available.toNat := r.inside
  have hindex : y.i.toNat ≤ y.eff.toNat := r.index
  have hsame : (s.stored x).deliveries y.base y.i.toNat = s.deliveries y.base y.i.toNat := by
    refine List.map_congr_left fun k hk => ?_
    rw [List.mem_range] at hk
    rw [r.base, w.logicalByte_stored h hi (by omega)]
  rw [hsame]
  exact r.delivered

theorem Invariant.stored (h : Invariant s) (busy : s.pXfer = some x) (hi : x.i < x.eff)
    (hcell : off s.mask x.base x.i < s.capacity) : Invariant (s.stored x) := by
  have w := h.writing x busy
  have live := h.live w.live
  exact
    { build   := h.build
      memory  := Memory.store_wf _ _ _ h.memory
      live    := fun _ => live.stored hcell
      dead    := fun hd => absurd (w.live.symm.trans hd) (by decide)
      writing := fun x' hx' => by cases hx'; exact w.stored live hi
      reading := fun y hy => (h.reading y hy).stored w live hi }

/-- The state after a WRITE's PUBLISH, but for its response (R61). -/
def State.writePublished (s : State) (x : WriteXfer) : State :=
  { s with writeCursor := x.base + x.eff, pXfer := none }

theorem WriteInv.available_writePublished (w : WriteInv s x) :
    (s.writePublished x).available.toNat = s.available.toNat + x.eff.toNat := by
  have hroom := w.room
  have := s.capacity.isLt
  rw [State.writePublished, w.base]
  exact available_advance_write _ _ _ (show s.available.toNat + _ < _ by omega)

theorem LiveInv.writePublished (h : LiveInv s) (w : WriteInv s x) (hi : x.i = x.eff) : LiveInv (s.writePublished x) where
  pow2   := h.pow2
  maskEq := h.maskEq
  bound  := by
    rw [BitVec.le_def, w.available_writePublished]
    exact w.room
  cells  := h.cells
  window := fun k hk => by
    rw [w.available_writePublished] at hk
    show (Memory.load? s.storage (off s.mask s.readCursor (BitVec.ofNat 32 k)).toNat).isSome
    by_cases hold : k < s.available.toNat
    · exact h.window k hold
    · obtain ⟨j, rfl⟩ := Nat.exists_eq_add_of_le (Nat.le_of_not_lt hold)
      rw [← s.off_writeCursor, ← w.base, w.copied j (by rw [hi]; omega)]
      rfl

theorem ReadInv.writePublished (r : ReadInv s y) (w : WriteInv s x) : ReadInv (s.writePublished x) y where
  live      := r.live
  base      := r.base
  pos       := r.pos
  index     := r.index
  inside    := by
    have hinside : y.eff.toNat ≤ s.available.toNat := r.inside
    rw [BitVec.le_def, w.available_writePublished]
    omega
  delivered := r.delivered

theorem Invariant.writePublished (h : Invariant s) (busy : s.pXfer = some x) (hi : x.i = x.eff) :
    Invariant (s.writePublished x) := by
  have w := h.writing x busy
  exact
    { build   := h.build
      memory  := h.memory
      live    := fun _ => (h.live w.live).writePublished w hi
      dead    := fun hd => absurd (w.live.symm.trans hd) (by decide)
      writing := nofun
      reading := fun y hy => (h.reading y hy).writePublished w }

/-! ### Port C -/

theorem Invariant.readBegun {kind : ReadKind} {len : Word} (h : Invariant s) (ha : s.alive = true)
    (he : s.readEff len ≠ 0) :
    Invariant { s with cXfer := some { kind := kind, base := s.readCursor, eff := s.readEff len, i := 0 } } where
  build   := h.build
  memory  := h.memory
  live    := fun _ => (h.live ha).congr ⟨rfl, rfl, rfl, rfl, rfl, rfl⟩ ⟨rfl, fun _ => rfl⟩
  dead    := fun hd => absurd (ha.symm.trans hd) (by decide)
  writing := fun x hx => (h.writing x hx).congr ⟨rfl, rfl, rfl, rfl, rfl, rfl⟩ ⟨rfl, fun _ => rfl⟩ fun _ => rfl
  reading := fun y hy => by
    cases hy
    have hinside : s.readEff len ≤ s.available := by
      rw [BitVec.le_def, s.readEff_toNat]
      omega
    exact ⟨ha, rfl, (BitVec.pos_iff_ne_zero _).2 he, Nat.zero_le _, hinside, s.dst, (List.append_nil _).symm⟩

/-- The state after a LOAD (R62). -/
def State.loaded (s : State) (y : ReadXfer) : State :=
  { s with
    dst   := s.dst ++ [(y.i, s.byteAt (off s.mask y.base y.i).toNat)]
    cXfer := some { y with i := y.i + 1 } }

theorem ReadInv.loaded (r : ReadInv s y) (hi : y.i < y.eff) : ReadInv (s.loaded y) { y with i := y.i + 1 } := by
  have hlt : y.i.toNat < y.eff.toNat := hi
  have hnext := toNat_add_one_of_lt hi
  refine ⟨r.live, r.base, r.pos, ?_, r.inside, ?_⟩
  · show (y.i + 1).toNat ≤ y.eff.toNat
    omega
  · obtain ⟨before, hbefore⟩ := r.delivered
    refine ⟨before, ?_⟩
    show s.dst ++ [(y.i, _)] = before ++ s.deliveries y.base (y.i + 1).toNat
    rw [hnext, State.deliveries, List.range_succ, List.map_append, ← List.append_assoc, hbefore]
    simp [State.deliveries, State.logicalByte]

theorem Invariant.loaded (h : Invariant s) (busy : s.cXfer = some y) (hi : y.i < y.eff) : Invariant (s.loaded y) := by
  have r := h.reading y busy
  exact
    { build   := h.build
      memory  := h.memory
      live    := fun ha => (h.live ha).congr ⟨rfl, rfl, rfl, rfl, rfl, rfl⟩ ⟨rfl, fun _ => rfl⟩
      dead    := fun hd => absurd (r.live.symm.trans hd) (by decide)
      writing := fun x hx => (h.writing x hx).congr ⟨rfl, rfl, rfl, rfl, rfl, rfl⟩ ⟨rfl, fun _ => rfl⟩ fun _ => rfl
      reading := fun y' hy' => by cases hy'; exact r.loaded hi }

/-- The state after a READ's PUBLISH, but for its response (R62). -/
def State.readPublished (s : State) (y : ReadXfer) : State :=
  { s with readCursor := y.base + y.eff, cXfer := none }

theorem ReadInv.available_readPublished (r : ReadInv s y) :
    (s.readPublished y).available.toNat = s.available.toNat - y.eff.toNat := by
  rw [State.readPublished, r.base]
  exact available_advance_read _ _ _ r.inside

theorem LiveInv.readPublished (h : LiveInv s) (r : ReadInv s y) : LiveInv (s.readPublished y) where
  pow2   := h.pow2
  maskEq := h.maskEq
  bound  := by
    have hbound : s.available.toNat ≤ s.capacity.toNat := h.bound
    rw [BitVec.le_def, r.available_readPublished]
    exact (Nat.sub_le _ _).trans hbound
  cells  := h.cells
  window := fun k hk => by
    rw [r.available_readPublished] at hk
    show (Memory.load? s.storage (off s.mask (y.base + y.eff) (BitVec.ofNat 32 k)).toNat).isSome
    rw [off_advance, r.base]
    exact h.window _ (by omega)

theorem WriteInv.readPublished (w : WriteInv s x) (r : ReadInv s y) : WriteInv (s.readPublished y) x where
  live   := w.live
  base   := w.base
  pos    := w.pos
  index  := w.index
  room   := by
    have hroom := w.room
    rw [r.available_readPublished]
    show _ ≤ s.capacity.toNat
    omega
  copied := w.copied

theorem Invariant.readPublished (h : Invariant s) (busy : s.cXfer = some y) : Invariant (s.readPublished y) := by
  have r := h.reading y busy
  exact
    { build   := h.build
      memory  := h.memory
      live    := fun _ => (h.live r.live).readPublished r
      dead    := fun hd => absurd (r.live.symm.trans hd) (by decide)
      writing := fun x hx => (h.writing x hx).readPublished r
      reading := nofun }

theorem Invariant.peekEnded (h : Invariant s) : Invariant { s with cXfer := none } where
  build   := h.build
  memory  := h.memory
  live    := fun ha => (h.live ha).congr ⟨rfl, rfl, rfl, rfl, rfl, rfl⟩ ⟨rfl, fun _ => rfl⟩
  dead    := fun hd => by
    obtain ⟨hw, hr, hx, _⟩ := h.dead hd
    exact ⟨hw, hr, hx, rfl⟩
  writing := fun x hx => (h.writing x hx).congr ⟨rfl, rfl, rfl, rfl, rfl, rfl⟩ ⟨rfl, fun _ => rfl⟩ fun _ => rfl
  reading := nofun

/-! ### Port K and the reset input -/

/-- A valid build gives INIT a power of two of at most `2^(W-1)` (R11, R112, R113). -/
theorem capacityFor_ok {b : Build} {count size : Word} {cap : Nat} (hb : b.Valid) (h : capacityFor b count size = .ok cap) :
    ∃ n, n ≤ 31 ∧ cap = 2 ^ n := by
  obtain ⟨_, hfixed, m, hm, hmax⟩ := hb
  unfold capacityFor at h
  split at h <;> dsimp only at h <;> split at h <;> cases h
  · next hpow =>
    obtain ⟨n, hn⟩ := (isPow2_iff _).1 hpow
    have hlt : 2 ^ n < 2 ^ 32 := hn ▸ (Nat.div_le_self _ _).trans_lt hfixed
    exact ⟨n, Nat.le_of_lt_succ ((Nat.pow_lt_pow_iff_right (by decide)).1 hlt), hn⟩
  · next hle =>
    obtain ⟨n, hn⟩ := npot_pow2 (count.toNat * size.toNat)
    rw [hn, hmax] at hle
    exact ⟨n, ((Nat.pow_le_pow_iff_right (by decide)).1 hle).trans hm, hn⟩

theorem LiveInv.construct {cap n : Nat} (hn : n ≤ 31) (hcap : cap = 2 ^ n) (size : Word) :
    LiveInv (s.construct cap size) where
  pow2   := by
    have hlt : 2 ^ n < 2 ^ 32 := Nat.pow_lt_pow_right (by decide) (by omega)
    exact ⟨n, hn, by rw [State.construct_capacity, BitVec.toNat_ofNat, hcap, Nat.mod_eq_of_lt hlt]⟩
  maskEq := rfl
  bound  := by
    rw [State.available_eq_zero rfl]
    exact Nat.zero_le _
  cells  := fun a ha => by simp at ha
  window := fun k hk => by
    rw [State.available_eq_zero rfl] at hk
    exact absurd hk (Nat.not_lt_zero k)

theorem State.not_inFlight (h : s.inFlight = false) : s.pXfer = none ∧ s.cXfer = none := by
  simpa [State.inFlight] using h

theorem Invariant.construct {count size : Word} {cap : Nat} (h : Invariant s) (idle : s.inFlight = false)
    (fits : capacityFor s.build count size = .ok cap) : Invariant (s.construct cap size) := by
  obtain ⟨n, hn, hcap⟩ := capacityFor_ok h.build fits
  obtain ⟨hx, hy⟩ := State.not_inFlight idle
  exact
    { build   := h.build
      memory  := List.Pairwise.nil
      live    := fun _ => .construct hn hcap size
      dead    := nofun
      writing := fun x hx' => by simp [hx] at hx'
      reading := fun y hy' => by simp [hy] at hy' }

/-- With nothing in flight, a buffer that is not alive asks only for zero cursors (R39, R41). -/
theorem Invariant.of_dead (hbuild : t.build.Valid) (hmem : Memory.wf t.storage) (ha : t.alive = false)
    (hw : t.writeCursor = 0) (hr : t.readCursor = 0) (hx : t.pXfer = none) (hy : t.cXfer = none) : Invariant t where
  build   := hbuild
  memory  := hmem
  live    := fun hl => absurd (hl.symm.trans ha) (by decide)
  dead    := fun _ => ⟨hw, hr, hx, hy⟩
  writing := fun x hx' => by simp [hx] at hx'
  reading := fun y hy' => by simp [hy] at hy'

/-! ### Every step -/

theorem Invariant.commandEffect (h : Invariant s) (e : CommandEffect s t) : Invariant t := by
  cases e with
  | answered st v => exact h.respond _ _ _
  | writeBegun len port live eff => exact h.writeBegun live eff
  | readBegun kind len port live eff => exact h.readBegun live eff
  | constructed count size cap port dead idle hcount hsize fits => exact (h.construct idle fits).respond _ _ _
  | destroyed port live idle =>
    obtain ⟨hx, hy⟩ := State.not_inFlight idle
    exact (Invariant.of_dead (t := { s with alive := false, writeCursor := 0, readCursor := 0 }) h.build h.memory rfl rfl rfl
      hx hy).respond _ _ _

theorem Invariant.stepEffect (h : Invariant s) (e : StepEffect s t) : Invariant t := by
  cases e with
  | reset => exact .of_dead h.build h.memory rfl rfl rfl rfl rfl
  | stored x turn busy index cell => exact h.spendTurn.stored busy index cell
  | writePublished x turn busy index => exact (h.spendTurn.writePublished busy index).respond _ _ _
  | loaded y turn busy index => exact h.spendTurn.loaded busy index
  | readPublished y turn busy => exact (h.spendTurn.readPublished busy).respond _ _ _
  | peekEnded => exact h.spendTurn.peekEnded.respond _ _ _
  | idle => exact h.spendTurn
  | command q c rest t turn free cmds run effect => exact (h.accept free c rest).commandEffect effect

end Sys2Proof.Machine

namespace Sys2Proof.Proofs
open Sys2Proof.Machine

/-- Settles O40: each thing a step can do keeps the invariant. -/
theorem everyStepKeepsTheInvariant : Obligations.EveryStepKeepsTheInvariant := by
  unfold Obligations.EveryStepKeepsTheInvariant
  exact fun s t h hstep => h.stepEffect (step_effect hstep)

end Sys2Proof.Proofs
end

section
/-! PROOF. The logical contents: what each step does to them, and what the whole transfers of R130, R136 and R142 do. -/

namespace Sys2Proof.Machine

variable {s t : State} {x : WriteXfer} {y : ReadXfer}

/-! ### Steps -/

/-- A STORE shows nothing of its bytes (R37, R67). -/
theorem WriteInv.contents_stored (w : WriteInv s x) (h : LiveInv s) (hi : x.i < x.eff) :
    (s.stored x).contents = s.contents :=
  List.map_congr_left fun _ hk => w.logicalByte_stored h hi (List.mem_range.1 hk)

/-- A WRITE's PUBLISH appends its source bytes (R37, R133). -/
theorem WriteInv.contents_writePublished (w : WriteInv s x) (hi : x.i = x.eff) :
    (s.writePublished x).contents = s.contents ++ (List.range x.eff.toNat).map s.srcByte := by
  refine State.contents_append rfl w.available_writePublished (fun _ _ => rfl) fun k hk => ?_
  refine State.byteAt_of_load (s := s.writePublished x) (?_ : Memory.load? s.storage _ = _)
  show Memory.load? s.storage (off s.mask s.readCursor _).toNat = _
  rw [← s.off_writeCursor, ← w.base]
  exact w.copied k (by rw [hi]; exact hk)

/-- A READ's PUBLISH removes the oldest bytes (R37, R139). -/
theorem ReadInv.contents_readPublished (r : ReadInv s y) :
    (s.readPublished y).contents = s.contents.drop y.eff.toNat :=
  State.contents_drop (by rw [State.readPublished, r.base]) r.available_readPublished fun _ _ => rfl

/-- By its PUBLISH a READ or PEEK has delivered the oldest bytes, last of all deliveries (R138). -/
theorem ReadInv.delivered_bytes (r : ReadInv s y) (hi : y.i = y.eff) :
    (s.dst.drop (s.dst.length - y.eff.toNat)).map Prod.snd = s.contents.take y.eff.toNat := by
  obtain ⟨before, hdst⟩ := r.delivered
  have hlen : (s.deliveries y.base y.i.toNat).length = y.eff.toNat := by simp [State.deliveries, hi]
  have hdrop : s.dst.drop (s.dst.length - y.eff.toNat) = s.deliveries y.base y.i.toNat := by
    rw [hdst, List.length_append, hlen, Nat.add_sub_cancel, List.drop_left]
  rw [hdrop, hi, r.base]
  exact s.deliveries_bytes r.inside

/-- A command changes the contents only on port K, where it can only empty them. -/
theorem CommandFrame.contents {q : Port} (f : CommandFrame q s t) :
    t.contents = s.contents ∨ q = .K ∧ t.contents = [] := by
  cases f with
  | kept r m => exact .inl (r.contents_eq m)
  | constructed hq _ _ hw hr => exact .inr ⟨hq, State.contents_eq_nil (hw.trans hr.symm)⟩
  | destroyed hq hw hr => exact .inr ⟨hq, State.contents_eq_nil (hw.trans hr.symm)⟩

/-- The next step is no PUBLISH of a WRITE or of a READ (R61, R62). -/
structure NoPublish (s : State) : Prop where
  write : ∀ x, s.turn = .port .P → s.pXfer = some x → x.i ≠ x.eff
  read  : ∀ y, s.turn = .port .C → s.cXfer = some y → y.i ≠ y.eff ∨ y.kind = .peek

theorem State.IdleAt.noPublish {q : Port} (free : s.IdleAt q) (turn : s.turn = .port q) : NoPublish s where
  write := fun x ht hx => by
    rw [turn, Turn.port.injEq] at ht
    exact absurd ((free.1 ht).symm.trans hx) nofun
  read  := fun y ht hy => by
    rw [turn, Turn.port.injEq] at ht
    exact absurd ((free.2 ht).symm.trans hy) nofun

/-- How the contents can change in a step (R37): not at all, a WRITE's PUBLISH, a READ's PUBLISH, or emptied. -/
theorem step_contents (h : Invariant s) (hstep : step s = .next t) :
    (t.contents = s.contents ∧ NoPublish s ∧ s.turn ≠ .reset) ∨
    (∃ x, s.turn = .port .P ∧ s.pXfer = some x ∧ x.i = x.eff ∧
      t.contents = s.contents ++ (List.range x.eff.toNat).map s.srcByte) ∨
    (∃ y, s.turn = .port .C ∧ s.cXfer = some y ∧ y.i = y.eff ∧ y.kind = .read ∧
      t.contents = s.contents.drop y.eff.toNat ∧
      (s.dst.drop (s.dst.length - y.eff.toNat)).map Prod.snd = s.contents.take y.eff.toNat) ∨
    ((s.turn = .port .K ∨ s.turn = .reset) ∧ t.contents = []) := by
  cases step_effect hstep with
  | reset turn => exact .inr (.inr (.inr ⟨.inr turn, State.contents_eq_nil rfl⟩))
  | stored x turn busy index =>
    have w := h.spendTurn.writing x busy
    refine .inl ⟨w.contents_stored (h.spendTurn.live w.live) index, ⟨?_, ?_⟩, by simp [turn]⟩
    · simp [busy, BitVec.ne_of_lt index]
    · simp [turn]
  | writePublished x turn busy index =>
    refine .inr (.inl ⟨x, turn, busy, index, ?_⟩)
    rw [State.respond_contents]
    exact (h.spendTurn.writing x busy).contents_writePublished index
  | loaded y turn busy index =>
    refine .inl ⟨rfl, ⟨?_, ?_⟩, by simp [turn]⟩
    · simp [turn]
    · simp [busy, BitVec.ne_of_lt index]
  | readPublished y turn busy index kind =>
    refine .inr (.inr (.inl ⟨y, turn, busy, index, kind, ?_, (h.reading y busy).delivered_bytes index⟩))
    rw [State.respond_contents]
    exact (h.spendTurn.reading y busy).contents_readPublished
  | peekEnded y turn busy index kind =>
    refine .inl ⟨?_, ⟨?_, ?_⟩, by simp [turn]⟩
    · rw [State.respond_contents]
      rfl
    · simp [turn]
    · simp [busy, kind]
  | idle q turn free => exact .inl ⟨rfl, free.noPublish turn, by simp [turn]⟩
  | command q c rest t turn free cmds run effect =>
    rcases effect.frame_of_turn.contents with same | ⟨hq, emptied⟩
    · exact .inl ⟨same, free.noPublish turn, by simp [turn]⟩
    · exact .inr (.inr (.inr ⟨.inl (hq ▸ turn), emptied⟩))

/-! ### The two chunks -/

theorem chunk1_add_chunk2 (capacity mask c eff : Word) :
    (chunk1 capacity mask c eff).toNat + (chunk2 capacity mask c eff).toNat = eff.toNat := by
  have hle : (chunk1 capacity mask c eff).toNat ≤ eff.toNat := by
    rw [chunk1, wmin_toNat]
    omega
  rw [chunk2, BitVec.toNat_sub_of_le hle]
  omega

theorem LiveInv.offset_lt (h : LiveInv s) (c : Word) : (c &&& s.mask).toNat < s.capacity.toNat := by
  have hlt := h.off_lt c 0
  rwa [off, add_zero, BitVec.lt_def] at hlt

/-- Chunk 1 ends at the physical boundary at the latest (R53). -/
theorem LiveInv.chunk1_toNat (h : LiveInv s) (c eff : Word) :
    (chunk1 s.capacity s.mask c eff).toNat = min eff.toNat (s.capacity.toNat - (c &&& s.mask).toNat) := by
  rw [chunk1, wmin_toNat, BitVec.toNat_sub_of_le (Nat.le_of_lt (h.offset_lt c))]

/-- Chunk 2 ends before chunk 1 starts (R53). -/
theorem LiveInv.chunk2_le (h : LiveInv s) (c : Word) {eff : Word} (he : eff ≤ s.capacity) :
    (chunk2 s.capacity s.mask c eff).toNat ≤ (c &&& s.mask).toNat := by
  have hsum := chunk1_add_chunk2 s.capacity s.mask c eff
  have heff : eff.toNat ≤ s.capacity.toNat := he
  rw [h.chunk1_toNat] at hsum
  omega

theorem LiveInv.off_add_toNat (h : LiveInv s) (c : Word) {k : Nat} (hk : k ≤ s.capacity.toNat) :
    (off s.mask c (BitVec.ofNat 32 k)).toNat = ((c &&& s.mask).toNat + k) % s.capacity.toNat := by
  obtain ⟨n, hn, hc, hm⟩ := h.nat
  have := s.capacity.isLt
  rw [off_toNat (by omega) hm, and_mask_toNat hm, BitVec.toNat_ofNat, Nat.mod_eq_of_lt (by omega : k < 2 ^ 32), hc,
    Nat.mod_add_mod]

/-- Chunk 1 starts at the cursor's cell (R53). -/
theorem LiveInv.off_chunk1 (h : LiveInv s) (c : Word) {eff : Word} {k : Nat}
    (hk : k < (chunk1 s.capacity s.mask c eff).toNat) :
    (off s.mask c (BitVec.ofNat 32 k)).toNat = (c &&& s.mask).toNat + k := by
  rw [h.chunk1_toNat] at hk
  rw [h.off_add_toNat c (by omega), Nat.mod_eq_of_lt (by omega)]

/-- Chunk 2 starts at offset 0 (R53). -/
theorem LiveInv.off_chunk2 (h : LiveInv s) (c : Word) {eff : Word} (he : eff ≤ s.capacity) {k : Nat}
    (hk : k < (chunk2 s.capacity s.mask c eff).toNat) :
    (off s.mask c (BitVec.ofNat 32 ((chunk1 s.capacity s.mask c eff).toNat + k))).toNat = k := by
  have hsum := chunk1_add_chunk2 s.capacity s.mask c eff
  have heff : eff.toNat ≤ s.capacity.toNat := he
  rw [h.off_add_toNat c (by omega)]
  have hlt := h.offset_lt c
  rw [h.chunk1_toNat] at hsum ⊢
  rw [show (c &&& s.mask).toNat + (min eff.toNat (s.capacity.toNat - (c &&& s.mask).toNat) + k) = k + s.capacity.toNat by omega,
    Nat.add_mod_right, Nat.mod_eq_of_lt (by omega)]

theorem loadRun_eq (byte : Nat → Byte) (n o k : Nat) :
    loadRun byte n o k = (List.range n).map fun j => (BitVec.ofNat 32 (k + j), byte (o + j)) := by
  induction n generalizing o k with
  | zero => rfl
  | succ n ih => simp [loadRun, ih, List.range_succ_eq_map, Nat.add_assoc, Nat.add_comm 1]

theorem load?_storeRun (byte : Nat → Byte) (n o k : Nat) (m : Memory) (a : Nat) :
    Memory.load? (storeRun byte n o k m) a =
      if o ≤ a ∧ a < o + n then some (byte (k + (a - o))) else Memory.load? m a := by
  induction n generalizing o k m with
  | zero => rw [if_neg (by omega)]; rfl
  | succ n ih =>
    rw [storeRun, ih, Memory.load?_store]
    by_cases hao : a = o
    · subst hao
      rw [if_neg (by omega), if_pos rfl, if_pos (by omega), Nat.sub_self, Nat.add_zero]
    · by_cases hin : o + 1 ≤ a ∧ a < o + 1 + n
      · rw [if_pos hin, if_pos (by omega), show k + 1 + (a - (o + 1)) = k + (a - o) by omega]
      · rw [if_neg hin, if_neg hao, if_neg (by omega)]

/-- READ's two chunks deliver the bytes from the read cursor on, in order (R53, R138). -/
theorem LiveInv.wholeLoad_eq (h : LiveInv s) {eff : Word} (he : eff ≤ s.capacity) :
    s.wholeLoad eff = s.deliveries s.readCursor eff.toNat := by
  rw [State.wholeLoad, State.deliveries, ← chunk1_add_chunk2 s.capacity s.mask s.readCursor eff, List.range_add,
    List.map_append, List.map_map, loadRun_eq, loadRun_eq]
  congr 1 <;> apply List.map_congr_left <;> intro k hk <;> rw [List.mem_range] at hk
  · simp [State.logicalByte, h.off_chunk1 _ hk]
  · simp [State.logicalByte, h.off_chunk2 _ he hk]

/-- WRITE's two chunks put byte `k` at position `k` from the write cursor (R53, R132). -/
theorem LiveInv.load?_wholeStore (h : LiveInv s) {eff : Word} (he : eff ≤ s.capacity) {k : Nat} (hk : k < eff.toNat) :
    Memory.load? (s.wholeStore eff) (off s.mask s.writeCursor (BitVec.ofNat 32 k)).toNat = some (s.srcByte k) := by
  have hsum := chunk1_add_chunk2 s.capacity s.mask s.writeCursor eff
  have hle := h.chunk2_le s.writeCursor he
  rw [State.wholeStore, load?_storeRun, load?_storeRun]
  by_cases hk1 : k < (chunk1 s.capacity s.mask s.writeCursor eff).toNat
  · rw [h.off_chunk1 _ hk1, if_neg (by omega), if_pos (by omega), Nat.add_sub_cancel_left, Nat.zero_add]
  · obtain ⟨j, rfl⟩ := Nat.exists_eq_add_of_le (Nat.le_of_not_lt hk1)
    rw [h.off_chunk2 _ he (by omega), if_pos (by omega), Nat.sub_zero]

/-- WRITE's two chunks store to no other cell (R53, R132). -/
theorem LiveInv.load?_wholeStore_of_ne (h : LiveInv s) {eff : Word} (he : eff ≤ s.capacity) {a : Nat}
    (ha : ∀ k, k < eff.toNat → a ≠ (off s.mask s.writeCursor (BitVec.ofNat 32 k)).toNat) :
    Memory.load? (s.wholeStore eff) a = Memory.load? s.storage a := by
  have hsum := chunk1_add_chunk2 s.capacity s.mask s.writeCursor eff
  rw [State.wholeStore, load?_storeRun, load?_storeRun, if_neg, if_neg]
  · rintro ⟨hlo, hhi⟩
    obtain ⟨j, rfl⟩ := Nat.exists_eq_add_of_le hlo
    exact ha j (by omega) (h.off_chunk1 _ (eff := eff) (by omega)).symm
  · rintro ⟨_, hhi⟩
    exact ha _ (by omega) (h.off_chunk2 _ he (k := a) (by omega)).symm

/-! ### The whole transfers -/

theorem LiveInv.writeEff_room (h : LiveInv s) (len : Word) :
    s.available.toNat + (s.writeEff len).toNat ≤ s.capacity.toNat := by
  have hbound : s.available.toNat ≤ s.capacity.toNat := h.bound
  rw [h.writeEff_toNat]
  omega

theorem State.readEff_le (s : State) (len : Word) : s.readEff len ≤ s.available := by
  rw [BitVec.le_def, s.readEff_toNat]
  exact Nat.min_le_right _ _

/-- WRITE as a function appends the admitted source bytes (R37, R130). -/
theorem LiveInv.contents_wholeWrite (h : LiveInv s) (len : Word) :
    (s.wholeWrite len).contents = s.contents ++ (List.range (s.writeEff len).toNat).map s.srcByte := by
  have hroom := h.writeEff_room len
  have hcap := s.capacity.isLt
  have he : s.writeEff len ≤ s.capacity := (Nat.le_add_left _ _).trans hroom
  rw [State.wholeWrite, State.respond_contents]
  refine State.contents_append rfl (available_advance_write _ _ _ (hroom.trans_lt hcap)) (fun j hj => ?_) fun k hk => ?_
  · exact State.byteAt_congr (h.load?_wholeStore_of_ne he fun k hk => h.window_ne_free hj (by omega)) rfl
  · refine State.byteAt_of_load ?_
    show Memory.load? (s.wholeStore _) (off s.mask s.readCursor _).toNat = _
    rw [← s.off_writeCursor]
    exact h.load?_wholeStore he hk

/-- READ as a function removes the oldest bytes (R37, R136). -/
theorem State.contents_wholeRead (s : State) (len : Word) :
    (s.wholeRead len).contents = s.contents.drop (s.readEff len).toNat := by
  rw [State.wholeRead, State.respond_contents]
  exact State.contents_drop rfl (available_advance_read _ _ _ (s.readEff_le len)) fun _ _ => rfl

/-- READ as a function delivers the oldest bytes (R138). -/
theorem LiveInv.wholeRead_bytes (h : LiveInv s) (len : Word) :
    (s.wholeRead len).dst.map Prod.snd = s.dst.map Prod.snd ++ s.contents.take (s.readEff len).toNat := by
  have hle := s.readEff_le len
  rw [← s.deliveries_bytes hle, ← h.wholeLoad_eq (BitVec.le_trans hle h.bound), State.wholeRead, State.respond_dst,
    List.map_append]

end Sys2Proof.Machine

namespace Sys2Proof.Proofs
open Sys2Proof.Machine

/-- Settles O35: the chunks of the function forms are the positions of R37. -/
theorem transfersActOnTheContents : Obligations.TransfersActOnTheContents := by
  unfold Obligations.TransfersActOnTheContents
  intro s len h
  have peek_contents : (s.wholePeek len).contents = s.contents := by
    rw [State.wholePeek, State.respond_contents]
    rfl
  have peek_dst : (s.wholePeek len).dst = (s.wholeRead len).dst := by
    simp [State.wholePeek, State.wholeRead]
  exact ⟨h.contents_wholeWrite len, s.contents_wholeRead len, peek_contents, h.wholeRead_bytes len, peek_dst⟩

/-- Settles O42: the four ways of `step_contents`. -/
theorem stepsActOnTheContents : Obligations.StepsActOnTheContents := by
  unfold Obligations.StepsActOnTheContents
  intro s t h hstep
  rcases step_contents h hstep with ⟨same, quiet, turn⟩ | ⟨x, turn, busy, index, appended⟩ |
    ⟨y, turn, busy, index, kind, removed, delivered⟩ | ⟨turn, emptied⟩
  · refine ⟨fun x ht hx hi => absurd hi (quiet.write x ht hx), fun y ht hy hi hk => ?_, fun _ _ => same, fun _ _ => same,
      fun _ => .inl same, fun ht => absurd ht turn⟩
    rcases quiet.read y ht hy with hne | hpeek
    · exact absurd hi hne
    · exact absurd (hk.symm.trans hpeek) (by decide)
  · simp [turn, busy, index, appended]
  · simp [turn, busy, index, kind, removed, ← delivered]
  · rcases turn with turn | turn <;> simp [turn, emptied]

end Sys2Proof.Proofs
end

section
/-! PROOF. The offset mapper and its two-chunk form, for every capacity, and the copy steps of R61 and R62: what each one
does, and where each one stops. -/

namespace Sys2Proof.Machine

variable {s t : State} {x : WriteXfer} {y : ReadXfer}

/-! ### Offsets -/

/-- The offset mapper as a remainder of the capacity (R52). -/
theorem LiveInv.off_toNat (h : LiveInv s) (c k : Word) :
    (off s.mask c k).toNat = (c.toNat + k.toNat) % s.capacity.toNat := by
  obtain ⟨n, hn, hc, hm⟩ := h.nat
  rw [Machine.off_toNat (by omega) hm, hc]

/-- Every capacity is that of a live buffer: the one an INIT has just constructed (R114). -/
theorem exists_liveInv {n : Nat} {capacity mask : Word} (hn : n ≤ 31) (hc : capacity.toNat = 2 ^ n)
    (hm : mask.toNat = 2 ^ n - 1) : ∃ s : State, LiveInv s ∧ s.capacity = capacity ∧ s.mask = mask := by
  have h : LiveInv (State.reset.construct (2 ^ n) 1) := .construct hn rfl 1
  have hcap : (State.reset.construct (2 ^ n) 1).capacity = capacity := by
    rw [State.construct_capacity, ← hc, BitVec.ofNat_toNat, BitVec.setWidth_eq]
  refine ⟨_, h, hcap, ?_⟩
  obtain ⟨m, _, hc', hm'⟩ := h.nat
  rw [hcap, hc] at hc'
  exact BitVec.eq_of_toNat_eq (by rw [hm', hm, hc'])

/-! ### Frames -/

/-- A response on top of a state whose channels are `s`'s is the one answer of `s` (R81). -/
theorem SameChannels.oneAnswer_respond (h : SameChannels s t) (q : Port) (st : Status) (v : Word) :
    OneAnswer s (t.respond q st v) q { status := st, value := v } :=
  ⟨by rw [State.respond_chan_same, h q], fun p hp => (State.respond_chan_of_ne t st v hp).trans (h p)⟩

/-! ### The copy steps -/

/-- A copy index within its length is below it or at its end (R32, R33). -/
theorem index_lt_or_eq {i eff : Word} (h : i ≤ eff) : i < eff ∨ i = eff :=
  (Nat.lt_or_eq_of_le h).imp_right BitVec.eq_of_toNat_eq

theorem pCopyStep_publish (hi : x.i = x.eff) : pCopyStep x s = .next ((s.writePublished x).respond .P .ok x.eff) := by
  rw [pCopyStep, if_neg (by simp [hi]), if_pos hi, pPublish, State.writePublished]

theorem pCopyStep_pastEnd (hi : x.eff < x.i) : pCopyStep x s = .fault .indexPastEnd := by
  rw [pCopyStep, if_neg (BitVec.lt_asymm hi), if_neg (BitVec.ne_of_lt hi).symm]

theorem pCopyStep_outOfRange (hi : x.i < x.eff) (ho : s.capacity ≤ off s.mask x.base x.i) :
    pCopyStep x s = .fault .offsetOutOfRange := by
  rw [pCopyStep, if_pos hi, pStore, State.memWrite, if_neg (BitVec.not_lt.2 ho)]

theorem cCopyStep_readPublish (hi : y.i = y.eff) (hk : y.kind = .read) :
    cCopyStep y s = .next ((s.readPublished y).respond .C .ok y.eff) := by
  rw [cCopyStep, if_neg (by simp [hi]), if_pos hi, cPublish, hk, State.readPublished]

theorem cCopyStep_peekEnd (hi : y.i = y.eff) (hk : y.kind = .peek) :
    cCopyStep y s = .next ({ s with cXfer := none }.respond .C .ok 0) := by
  rw [cCopyStep, if_neg (by simp [hi]), if_pos hi, cPublish, hk]

theorem cCopyStep_pastEnd (hi : y.eff < y.i) : cCopyStep y s = .fault .indexPastEnd := by
  rw [cCopyStep, if_neg (BitVec.lt_asymm hi), if_neg (BitVec.ne_of_lt hi).symm]

theorem cCopyStep_outOfRange (hi : y.i < y.eff) (ho : s.capacity ≤ off s.mask y.base y.i) :
    cCopyStep y s = .fault .offsetOutOfRange := by
  rw [cCopyStep, if_pos hi, cLoad, State.memRead, if_neg (BitVec.not_lt.2 ho)]

/-- The byte a STORE puts in its cell (R132). -/
theorem State.byteAt_stored_same (s : State) (x : WriteXfer) :
    (s.stored x).byteAt (off s.mask x.base x.i).toNat = s.srcByte x.i.toNat :=
  State.byteAt_of_load (Memory.load?_store_same _ _ _)

/-- A STORE leaves every other cell as it is (R132). -/
theorem State.byteAt_stored_of_ne (s : State) (x : WriteXfer) {a : Nat} (ha : a ≠ (off s.mask x.base x.i).toNat) :
    (s.stored x).byteAt a = s.byteAt a :=
  State.byteAt_congr (Memory.load?_store_of_ne _ ha _) rfl

/-! ### Where a command stops -/

/-- A WRITE on port P of a live buffer with a WRITE in flight has no SAMPLE step (R61). -/
theorem execWrite_busy {len : Word} (hp : s.port = .P) (ha : s.alive = true) (hx : s.pXfer ≠ none) :
    execWrite len s = .fault .sampleWhileBusy := by
  obtain ⟨x, hx⟩ := Option.ne_none_iff_exists'.1 hx
  simp [execWrite, onPorts, whenAlive, pSample, hp, ha, hx]

/-- Every other WRITE gives a next state (R61, R88, R186). -/
theorem execWrite_total {len : Word} (idle : s.port = .P → s.alive = true → s.pXfer = none) :
    ∃ t, execWrite len s = .next t := by
  rcases onPorts_cases (o := execWrite len s) rfl with ⟨hp, h⟩ | ⟨_, h⟩
  · rcases whenAlive_cases h with ⟨ha, h⟩ | ⟨_, h⟩
    · rcases pSample_cases h (idle (by simpa using hp) ha) with ⟨_, h⟩ | ⟨_, h⟩ <;> exact ⟨_, h⟩
    · exact ⟨_, h⟩
  · exact ⟨_, h⟩

/-- A READ or PEEK on port C of a live buffer with one in flight has no SAMPLE step (R62). -/
theorem readOrPeek_busy {kind : ReadKind} {len : Word} (hp : s.port = .C) (ha : s.alive = true) (hy : s.cXfer ≠ none) :
    onPorts [.C] s (fun s => whenAlive s (cSample kind len)) = .fault .sampleWhileBusy := by
  obtain ⟨y, hy⟩ := Option.ne_none_iff_exists'.1 hy
  simp [onPorts, whenAlive, cSample, hp, ha, hy]

/-- Every other READ or PEEK gives a next state (R62, R88, R186). -/
theorem readOrPeek_total {kind : ReadKind} {len : Word} (idle : s.port = .C → s.alive = true → s.cXfer = none) :
    ∃ t, onPorts [.C] s (fun s => whenAlive s (cSample kind len)) = .next t := by
  rcases onPorts_cases (allowed := [.C]) (s := s) (body := fun s => whenAlive s (cSample kind len)) rfl with ⟨hp, h⟩ | ⟨_, h⟩
  · rcases whenAlive_cases h with ⟨ha, h⟩ | ⟨_, h⟩
    · rcases cSample_cases h (idle (by simpa using hp) ha) with ⟨_, h⟩ | ⟨_, h⟩ <;> exact ⟨_, h⟩
    · exact ⟨_, h⟩
  · exact ⟨_, h⟩

end Sys2Proof.Machine

namespace Sys2Proof.Proofs
open Sys2Proof.Machine

/-- Settles O22: masking is a remainder, and the capacity divides `2^W`. -/
theorem offsetMapper : Obligations.OffsetMapper := by
  unfold Obligations.OffsetMapper
  intro n mask c k hn hm
  rw [off_toNat (by omega) hm, and_mask_toNat hm, Nat.mod_add_mod]
  exact ⟨rfl, Nat.mod_lt _ (Nat.two_pow_pos n)⟩

/-- Settles O23: the laws of the two chunks of a live buffer, which exists for every capacity. -/
theorem twoChunkSplit : Obligations.TwoChunkSplit := by
  unfold Obligations.TwoChunkSplit
  intro n capacity mask c eff hn hc hm he
  obtain ⟨s, h, rfl, rfl⟩ := exists_liveInv hn hc hm
  have hsum := chunk1_add_chunk2 s.capacity s.mask c eff
  refine ⟨h.chunk1_toNat c eff, hsum, h.chunk2_le c he, fun hpos => ?_, fun k hk => h.off_chunk1 c hk, fun k hlo hhi => ?_⟩
  · have hlt := h.offset_lt c
    replace hpos : 0 < eff.toNat := hpos
    rw [h.chunk1_toNat]
    omega
  · obtain ⟨j, rfl⟩ := Nat.exists_eq_add_of_le hlo
    rw [h.off_chunk2 c he (by omega), Nat.add_sub_cancel_left]

/-- Settles O26: the state after a STORE is `State.stored`. -/
theorem storeStep : Obligations.StoreStep := by
  unfold Obligations.StoreStep
  intro s x h hi
  rw [← h.off_toNat]
  exact ⟨s.stored x, pCopyStep_store hi (h.off_lt _ _), s.byteAt_stored_same x, fun a ha => s.byteAt_stored_of_ne x ha, rfl,
    rfl, ⟨rfl, rfl, rfl, rfl, rfl, rfl⟩, rfl, fun _ => rfl, fun _ => rfl, rfl, ⟨rfl, rfl, rfl, rfl⟩⟩

/-- Settles O27: the state after the PUBLISH is `State.writePublished` and the response. -/
theorem publishStepOfWrite : Obligations.PublishStepOfWrite := by
  unfold Obligations.PublishStepOfWrite
  intro s x hi
  have channels : SameChannels s (s.writePublished x) := fun q => by cases q <;> rfl
  exact ⟨_, pCopyStep_publish hi, BitVec.toNat_add _ _, rfl, channels.oneAnswer_respond _ _ _, rfl, rfl, rfl, rfl, rfl, rfl,
    ⟨rfl, fun _ => rfl⟩, ⟨fun _ => rfl, rfl, rfl⟩, ⟨rfl, rfl, rfl, rfl⟩⟩

/-- Settles O28: the state after a LOAD is `State.loaded`. -/
theorem loadStep : Obligations.LoadStep := by
  unfold Obligations.LoadStep
  intro s y h hi
  rw [← h.off_toNat]
  exact ⟨s.loaded y, cCopyStep_load hi (h.off_lt _ _), rfl, rfl, ⟨rfl, rfl, rfl, rfl, rfl, rfl⟩, ⟨rfl, fun _ => rfl⟩, rfl,
    fun _ => rfl, fun _ => rfl, rfl, ⟨rfl, rfl, rfl, rfl⟩⟩

/-- Settles O29: a READ ends in `State.readPublished`, a PEEK in the state with port C idle; each gives its response. -/
theorem publishStepOfReadAndPeek : Obligations.PublishStepOfReadAndPeek := by
  unfold Obligations.PublishStepOfReadAndPeek
  intro s y hi
  cases hk : y.kind with
  | read =>
    have channels : SameChannels s (s.readPublished y) := fun q => by cases q <;> rfl
    exact ⟨_, cCopyStep_readPublish hi hk, rfl, fun _ => ⟨BitVec.toNat_add _ _, channels.oneAnswer_respond _ _ _⟩, nofun, rfl,
      rfl, rfl, rfl, rfl, rfl, ⟨rfl, fun _ => rfl⟩, ⟨fun _ => rfl, rfl, rfl⟩, ⟨rfl, rfl, rfl, rfl⟩⟩
  | peek =>
    have channels : SameChannels s { s with cXfer := none } := fun q => by cases q <;> rfl
    exact ⟨_, cCopyStep_peekEnd hi hk, rfl, nofun, fun _ => ⟨rfl, channels.oneAnswer_respond _ _ _⟩, rfl,
      rfl, rfl, rfl, rfl, rfl, ⟨rfl, fun _ => rfl⟩, ⟨fun _ => rfl, rfl, rfl⟩, ⟨rfl, rfl, rfl, rfl⟩⟩

/-- Settles O30: a busy port's own command faults at its SAMPLE; every other command ends in one of the cases of its law. -/
theorem commandsStopOnlyOnABusyPort : Obligations.CommandsStopOnlyOnABusyPort := by
  unfold Obligations.CommandsStopOnlyOnABusyPort
  intro i s
  refine ⟨?_, fun free => ?_⟩
  · rintro ⟨ha, ⟨⟨len, rfl⟩, hp, hx⟩ | ⟨⟨len, rfl | rfl⟩, hp, hy⟩⟩
    · exact execWrite_busy hp ha hx
    · exact readOrPeek_busy hp ha hy
    · exact readOrPeek_busy hp ha hy
  · have idleC : (∃ len, i = .read len ∨ i = .peek len) → s.port = .C → s.alive = true → s.cXfer = none :=
      fun hi hp ha => by_contra fun hy => free ⟨ha, .inr ⟨hi, hp, hy⟩⟩
    cases i with
    | init count size =>
      rcases execInit_cases (a := count) (b := size) (s := s) rfl with ⟨_, _, h⟩ | ⟨_, _, _, _, _, _, _, h⟩ <;> exact ⟨_, h⟩
    | destroy => rcases execDestroy_cases (s := s) rfl with ⟨_, h⟩ | ⟨_, _, _, h⟩ <;> exact ⟨_, h⟩
    | write len => exact execWrite_total fun hp ha => by_contra fun hx => free ⟨ha, .inl ⟨⟨len, rfl⟩, hp, hx⟩⟩
    | read len => exact readOrPeek_total (idleC ⟨len, .inl rfl⟩)
    | peek len => exact readOrPeek_total (idleC ⟨len, .inr rfl⟩)
    | capacity | available | unused => exact ⟨_, query_eq _ s⟩
    | isEmpty => exact ⟨_, query_eq (fun s => boolValue s.empty) s⟩
    | isFull => exact ⟨_, query_eq (fun s => boolValue s.full) s⟩

/-- Settles O31: each clause is one of the equations of the copy steps. -/
theorem copyStepsStopOnlyOutOfRange : Obligations.CopyStepsStopOnlyOutOfRange := by
  unfold Obligations.CopyStepsStopOnlyOutOfRange
  intro s x y
  refine ⟨pCopyStep_pastEnd, pCopyStep_outOfRange, fun hle ho => ?_, cCopyStep_pastEnd, cCopyStep_outOfRange,
    fun hle ho => ?_⟩
  · rcases index_lt_or_eq hle with hi | hi
    · exact ⟨_, pCopyStep_store hi (ho hi)⟩
    · exact ⟨_, pCopyStep_publish hi⟩
  · rcases index_lt_or_eq hle with hi | hi
    · exact ⟨_, cCopyStep_load hi (ho hi)⟩
    · cases hk : y.kind with
      | read => exact ⟨_, cCopyStep_readPublish hi hk⟩
      | peek => exact ⟨_, cCopyStep_peekEnd hi hk⟩

end Sys2Proof.Proofs
end

section
/-! PROOF. What the ports do to each other: the two transfers in flight touch different cells, their steps commute, and no
port's step disturbs another port's transfer, data or channel (R66, R67, R191). -/

namespace Sys2Proof.Machine

variable {s t : State} {x : WriteXfer} {y : ReadXfer}

/-! ### Two transfers in flight -/

/-- The WRITE's cells are free and the READ's or PEEK's are in the window, so that they differ (R66). -/
theorem Invariant.store_ne_load (h : Invariant s) (hx : s.pXfer = some x) (hy : s.cXfer = some y) {j k : Word}
    (hj : j < x.eff) (hk : k < y.eff) : off s.mask x.base j ≠ off s.mask y.base k := by
  have w := h.writing x hx
  have r := h.reading y hy
  have hroom := w.room
  have hinside : y.eff.toNat ≤ s.available.toNat := r.inside
  replace hj : j.toNat < x.eff.toNat := hj
  replace hk : k.toNat < y.eff.toNat := hk
  have hne := (h.live w.live).window_ne_free (j := k.toNat) (k := j.toNat) (by omega) (by omega)
  rw [BitVec.ofNat_toNat, BitVec.ofNat_toNat, BitVec.setWidth_eq, BitVec.setWidth_eq] at hne
  rw [w.base, r.base]
  exact fun e => hne (congrArg BitVec.toNat e).symm

/-- A STORE and a LOAD of different cells commute (R66). -/
theorem State.stored_loaded_comm (hne : off s.mask x.base x.i ≠ off s.mask y.base y.i) :
    (s.stored x).loaded y = (s.loaded y).stored x := by
  have hbyte : (s.stored x).byteAt (off (s.stored x).mask y.base y.i).toNat = s.byteAt (off s.mask y.base y.i).toNat :=
    s.byteAt_stored_of_ne x fun e => hne (BitVec.eq_of_toNat_eq e).symm
  rw [State.loaded, hbyte]
  rfl

theorem step_store (turn : s.turn = .port .P) (busy : s.pXfer = some x) (hi : x.i < x.eff)
    (ho : off s.mask x.base x.i < s.capacity) : step s = .next (s.spendTurn.stored x) := by
  simp only [step, turn, takeTurn, portTurn, State.spendTurn_pXfer, busy]
  exact pCopyStep_store hi ho

theorem step_load (turn : s.turn = .port .C) (busy : s.cXfer = some y) (hi : y.i < y.eff)
    (ho : off s.mask y.base y.i < s.capacity) : step s = .next (s.spendTurn.loaded y) := by
  simp only [step, turn, takeTurn, portTurn, State.spendTurn_cXfer, busy]
  exact cCopyStep_load hi ho

theorem core_run_two {u : State} (first : step s = .next u) (second : step u = .next t) :
    Sys2Proof.core.run 2 s = .next t := by
  simp only [Host.Core.run, Sys2Proof.core, first, second]

/-! ### What a port's step leaves to the other ports -/

/-- Port P's transfer, source, requests and channel are unchanged (R32, R55). -/
structure ProducerKept (s t : State) : Prop where
  pXfer  : t.pXfer = s.pXfer
  srcIdx : t.srcIdx = s.srcIdx
  src    : ∀ k, t.srcByte k = s.srcByte k
  portP  : t.portP = s.portP

/-- Port C's transfer, destination and channel are unchanged (R33, R56). -/
structure ConsumerKept (s t : State) : Prop where
  cXfer : t.cXfer = s.cXfer
  dst   : t.dst = s.dst
  portC : t.portC = s.portC

/-- Port K's channel and `ALIVE`, which only port K's commands write, are unchanged (R26). -/
structure HostKept (s t : State) : Prop where
  portK : t.portK = s.portK
  alive : t.alive = s.alive

/-- What belongs to the ports other than `q` is unchanged. -/
structure OthersKept (q : Port) (s t : State) : Prop where
  producer : q ≠ .P → ProducerKept s t
  consumer : q ≠ .C → ConsumerKept s t
  host     : q ≠ .K → HostKept s t

/-- A step of port P is held to what the other two ports own. -/
theorem OthersKept.of_producer (c : ConsumerKept s t) (h : HostKept s t) : OthersKept .P s t :=
  ⟨fun hq => absurd rfl hq, fun _ => c, fun _ => h⟩

/-- A step of port C is held to what the other two ports own. -/
theorem OthersKept.of_consumer (p : ProducerKept s t) (h : HostKept s t) : OthersKept .C s t :=
  ⟨fun _ => p, fun hq => absurd rfl hq, fun _ => h⟩

/-- A step of port K is held to what the other two ports own. -/
theorem OthersKept.of_host (p : ProducerKept s t) (c : ConsumerKept s t) : OthersKept .K s t :=
  ⟨fun _ => p, fun _ => c, fun hq => absurd rfl hq⟩

theorem OthersKept.trans {q : Port} {u : State} (h : OthersKept q s t) (k : OthersKept q t u) : OthersKept q s u where
  producer := fun hq =>
    have a := h.producer hq
    have b := k.producer hq
    ⟨b.pXfer.trans a.pXfer, b.srcIdx.trans a.srcIdx, fun n => (b.src n).trans (a.src n), b.portP.trans a.portP⟩
  consumer := fun hq =>
    have a := h.consumer hq
    have b := k.consumer hq
    ⟨b.cXfer.trans a.cXfer, b.dst.trans a.dst, b.portC.trans a.portC⟩
  host := fun hq =>
    have a := h.host hq
    have b := k.host hq
    ⟨b.portK.trans a.portK, b.alive.trans a.alive⟩

theorem State.othersKept_respond (s : State) (q : Port) (st : Status) (v : Word) : OthersKept q s (s.respond q st v) where
  producer := fun hq => ⟨by simp, by simp, by simp, s.respond_chan_of_ne st v hq.symm⟩
  consumer := fun hq => ⟨by simp, by simp, s.respond_chan_of_ne st v hq.symm⟩
  host     := fun hq => ⟨s.respond_chan_of_ne st v hq.symm, by simp⟩

/-- A port that takes a command word in its turn takes nothing of the other ports' (R81). -/
theorem State.othersKept_accept (s : State) (q : Port) (c : CmdIn) (rest : List CmdIn) :
    OthersKept q s (s.spendTurn.accept q c rest) where
  producer := fun hq =>
    ⟨by simp, by simp, s.spendTurn.accept_srcByte_of_ne c rest hq, s.spendTurn.accept_chan_of_ne hq.symm c rest⟩
  consumer := fun hq => ⟨by simp, by simp, s.spendTurn.accept_chan_of_ne hq.symm c rest⟩
  host     := fun hq => ⟨s.spendTurn.accept_chan_of_ne hq.symm c rest, by simp⟩

theorem OthersKept.respond {q : Port} (h : OthersKept q s t) (st : Status) (v : Word) : OthersKept q s (t.respond q st v) :=
  h.trans (t.othersKept_respond q st v)

/-- A command on an idle port writes registers, cells, its own port's transfer and its own port's channel at most. -/
theorem CommandEffect.othersKept (e : CommandEffect s t) : OthersKept s.port s t := by
  cases e with
  | answered st v => exact s.othersKept_respond _ _ _
  | writeBegun len port => exact port ▸ .of_producer ⟨rfl, rfl, rfl⟩ ⟨rfl, rfl⟩
  | readBegun kind len port => exact port ▸ .of_consumer ⟨rfl, rfl, fun _ => rfl, rfl⟩ ⟨rfl, rfl⟩
  | constructed count size cap port =>
    rw [port]
    refine OthersKept.respond ?_ _ _
    exact .of_host ⟨rfl, rfl, fun _ => rfl, rfl⟩ ⟨rfl, rfl, rfl⟩
  | destroyed port =>
    rw [port]
    refine OthersKept.respond ?_ _ _
    exact .of_host ⟨rfl, rfl, fun _ => rfl, rfl⟩ ⟨rfl, rfl, rfl⟩

/-- A step of a port keeps what belongs to the other ports (R66, R67, R191). -/
theorem StepEffect.othersKept {q : Port} (e : StepEffect s t) (turn : s.turn = .port q) : OthersKept q s t := by
  have same_port {p : Port} (ht : s.turn = .port p) : p = q := Turn.port.inj (ht.symm.trans turn)
  cases e with
  | reset ht => exact absurd (turn.symm.trans ht) nofun
  | stored x ht =>
    cases same_port ht
    exact .of_producer ⟨rfl, rfl, rfl⟩ ⟨rfl, rfl⟩
  | writePublished x ht =>
    cases same_port ht
    refine OthersKept.respond ?_ _ _
    exact .of_producer ⟨rfl, rfl, rfl⟩ ⟨rfl, rfl⟩
  | loaded y ht =>
    cases same_port ht
    exact .of_consumer ⟨rfl, rfl, fun _ => rfl, rfl⟩ ⟨rfl, rfl⟩
  | readPublished y ht =>
    cases same_port ht
    refine OthersKept.respond ?_ _ _
    exact .of_consumer ⟨rfl, rfl, fun _ => rfl, rfl⟩ ⟨rfl, rfl⟩
  | peekEnded y ht =>
    cases same_port ht
    refine OthersKept.respond ?_ _ _
    exact .of_consumer ⟨rfl, rfl, fun _ => rfl, rfl⟩ ⟨rfl, rfl⟩
  | idle p ht => exact ⟨fun _ => ⟨rfl, rfl, fun _ => rfl, rfl⟩, fun _ => ⟨rfl, rfl, rfl⟩, fun _ => ⟨rfl, rfl⟩⟩
  | command p c rest t ht free cmds run effect =>
    cases same_port ht
    have kept := effect.othersKept
    rw [State.accept_port] at kept
    exact (s.othersKept_accept q c rest).trans kept

end Sys2Proof.Machine

namespace Sys2Proof.Proofs
open Sys2Proof.Machine

/-- Settles O47: the WRITE's cells are free, the READ's or PEEK's are in the window. -/
theorem noCellIsStoredAndLoaded : Obligations.NoCellIsStoredAndLoaded := by
  unfold Obligations.NoCellIsStoredAndLoaded
  exact fun s x y h hx hy j k => h.store_ne_load hx hy

/-- Settles O48: the two steps name different cells, and each changes only its own port's fields besides. -/
theorem storeAndLoadCommute : Obligations.StoreAndLoadCommute := by
  unfold Obligations.StoreAndLoadCommute
  intro s x y rest h hx hy hi hj
  have live := h.live (h.writing x hx).live
  have storable := live.off_lt x.base x.i
  have loadable := live.off_lt y.base y.i
  have commute := State.stored_loaded_comm (s := { s with turns := rest, tick := s.tick + 1 + 1 })
    (h.store_ne_load hx hy hi hj)
  refine ⟨_, core_run_two (step_store rfl hx hi storable) (step_load rfl hy hj loadable), ?_⟩
  refine Eq.trans ?_ (congrArg Host.Outcome.next commute.symm)
  exact core_run_two (step_load rfl hy hj loadable) (step_store rfl hx hi storable)

/-- Settles O52: `OthersKept` of the port whose turn it is. -/
theorem portsDoNotDisturbEachOther : Obligations.PortsDoNotDisturbEachOther := by
  unfold Obligations.PortsDoNotDisturbEachOther
  intro s t q hstep turn
  have kept := (step_effect hstep).othersKept turn
  refine ⟨fun hq => ?_, fun hq => ?_, fun hq => ?_⟩
  · obtain ⟨hx, hidx, hsrc, hchan⟩ := kept.producer hq
    exact ⟨hx, hidx, hsrc, hchan⟩
  · obtain ⟨hy, hdst, hchan⟩ := kept.consumer hq
    exact ⟨hy, hdst, hchan⟩
  · obtain ⟨hchan, halive⟩ := kept.host hq
    exact ⟨hchan, halive⟩

end Sys2Proof.Proofs
end

section
/-! PROOF. The byte stream: what one step admits and releases, and so what every run does (R37, R51, R146). -/

namespace Sys2Proof.Machine

variable {s t : State} {x : WriteXfer} {y : ReadXfer}

/-! ### The bytes of one step -/

theorem State.streamOf_writePublish (turn : s.turn = .port .P) (busy : s.pXfer = some x) (index : x.i = x.eff) :
    s.streamOf = ((List.range x.eff.toNat).map s.srcByte, []) := by
  simp [State.streamOf, turn, busy, index]

theorem State.streamOf_readPublish (turn : s.turn = .port .C) (busy : s.cXfer = some y) (index : y.i = y.eff)
    (kind : y.kind = .read) : s.streamOf = ([], (s.dst.drop (s.dst.length - y.eff.toNat)).map Prod.snd) := by
  simp [State.streamOf, turn, busy, index, kind]

/-- Only a PUBLISH of a WRITE or of a READ moves bytes in or out (R133, R139). -/
theorem NoPublish.streamOf (quiet : NoPublish s) : s.streamOf = ([], []) := by
  unfold State.streamOf
  split
  · next turn =>
    split
    · next x busy => exact if_neg (quiet.write x turn busy)
    · rfl
  · next turn =>
    split
    · next y busy =>
      refine if_neg fun ⟨index, kind⟩ => ?_
      rcases quiet.read y turn busy with hne | hpeek
      · exact hne index
      · exact absurd (kind.symm.trans hpeek) (by decide)
    · rfl
  · rfl
  · rfl

/-! ### A buffer that stays alive -/

/-- A command that finds the buffer alive and leaves it alive has neither constructed nor destroyed it. -/
theorem CommandEffect.kept (e : CommandEffect s t) (before : s.alive = true) (after : t.alive = true) :
    SameRegisters s t ∧ SameStorage s t := by
  cases e with
  | answered st v => exact ⟨s.sameRegisters_respond _ _ _, s.sameStorage_respond _ _ _⟩
  | writeBegun | readBegun => exact ⟨⟨rfl, rfl, rfl, rfl, rfl, rfl⟩, rfl, fun _ => rfl⟩
  | constructed _ _ _ _ dead => simp [dead] at before
  | destroyed => simp at after

/-- A step of port K that leaves the buffer alive leaves its contents alone (R37). -/
theorem step_contents_of_hostTurn (hstep : step s = .next t) (turn : s.turn = .port .K) (before : s.alive = true)
    (after : t.alive = true) : t.contents = s.contents := by
  cases step_effect hstep with
  | idle => rfl
  | command q c rest t turn free cmds run effect =>
    obtain ⟨registers, storage⟩ := effect.kept (by simpa using before) after
    exact ((s.sameRegisters_accept q c rest).trans registers).contents_eq ((s.sameStorage_accept q c rest).trans storage)
  | reset turn' | stored _ turn' | writePublished _ turn' | loaded _ turn' | readPublished _ turn' | peekEnded _ turn' =>
    exact absurd (turn.symm.trans turn') (by decide)

/-- One step of a buffer that stays alive keeps the order of the bytes (R37, R51). -/
theorem step_stream (h : Invariant s) (hstep : step s = .next t) (before : s.alive = true) (after : t.alive = true) :
    s.contents ++ s.streamOf.1 = s.streamOf.2 ++ t.contents := by
  rcases step_contents h hstep with ⟨same, quiet, _⟩ | ⟨x, turn, busy, index, appended⟩ |
    ⟨y, turn, busy, index, kind, removed, delivered⟩ | ⟨turn | turn, _⟩
  · simp [quiet.streamOf, same]
  · simp [State.streamOf_writePublish turn busy index, appended]
  · simp [State.streamOf_readPublish turn busy index kind, removed, delivered]
  · have quiet : NoPublish s := State.IdleAt.noPublish (q := .K) ⟨nofun, nofun⟩ turn
    simp [quiet.streamOf, step_contents_of_hostTurn hstep turn before after]
  · have hreset : step s = .next s.spendTurn.resetInput := by simp [step, takeTurn, turn]
    cases hstep.symm.trans hreset
    cases after

/-! ### Every run -/

theorem streamRun_succ {n : Nat} {ins outs : List Byte} (h : streamRun (n + 1) s = some (t, ins, outs)) :
    ∃ u ins' outs', step s = .next u ∧ u.alive = true ∧ streamRun n u = some (t, ins', outs') ∧
      ins = s.streamOf.1 ++ ins' ∧ outs = s.streamOf.2 ++ outs' := by
  unfold streamRun at h
  split at h
  · next u hstep =>
    split at h
    · next alive =>
      obtain ⟨⟨_, ins', outs'⟩, hrun, e⟩ := Option.map_eq_some_iff.1 h
      cases e
      exact ⟨u, ins', outs', hstep, alive, hrun, rfl, rfl⟩
    · cases h
  · cases h
  · cases h

end Sys2Proof.Machine

namespace Sys2Proof.Proofs
open Sys2Proof.Machine

/-- Settles O43, by induction on the number of steps: each step keeps the invariant and the order of the bytes. -/
theorem theStreamIsFirstInFirstOut : Obligations.TheStreamIsFirstInFirstOut := by
  unfold Obligations.TheStreamIsFirstInFirstOut
  intro n
  induction n with
  | zero =>
    intro s t ins outs _ _ hrun
    cases hrun
    exact List.append_nil _
  | succ n ih =>
    intro s t ins outs h alive hrun
    obtain ⟨u, ins', outs', hstep, alive', hrun', rfl, rfl⟩ := streamRun_succ hrun
    have rest : u.contents ++ ins' = outs' ++ t.contents := ih u t ins' outs' (h.stepEffect (step_effect hstep)) alive' hrun'
    calc s.contents ++ (s.streamOf.1 ++ ins')
        = (s.contents ++ s.streamOf.1) ++ ins' := (List.append_assoc _ _ _).symm
      _ = s.streamOf.2 ++ (u.contents ++ ins') := by rw [step_stream h hstep alive alive', List.append_assoc]
      _ = (s.streamOf.2 ++ outs') ++ t.contents := by rw [rest, List.append_assoc]

end Sys2Proof.Proofs
end

section
/-! SUPPORT. The decoder inverted, what a rejected command does, and each port's account of its commands (30_encoding.md). -/

namespace Sys2Proof

/-- A command's operands are the fields of the word that R85 names for it; the fields it ignores may hold anything (R89). -/
def Instr.OperandsIn (w : CmdWord) : Instr → Prop
  | .init requestedCount elementSize => arg0Field w = requestedCount ∧ arg1Field w = elementSize
  | .write len | .read len | .peek len => arg0Field w = len
  | .destroy | .capacity | .available | .unused | .isEmpty | .isFull => True

/-- Every word that decodes to a command has its `op` and its operands (R85). -/
theorem opcode_and_operands_of_decode {w : CmdWord} {i : Instr} (h : decode w = .instr i) :
    w.toNat / 2 ^ 64 = i.opcode.toNat ∧ i.OperandsIn w := by
  rw [← opField_toNat]
  unfold decode at h
  split at h <;> cases h
  case h_1 hop => exact ⟨hop, rfl, rfl⟩
  case h_3 hop | h_4 hop | h_5 hop => exact ⟨hop, rfl⟩
  all_goals exact ⟨‹_›, trivial⟩

/-- Exactly the words with a command's `op` and operands stand for it (R85, R89). -/
theorem decode_eq_instr_iff (w : CmdWord) (i : Instr) :
    decode w = .instr i ↔ w.toNat / 2 ^ 64 = i.opcode.toNat ∧ i.OperandsIn w := by
  refine ⟨opcode_and_operands_of_decode, fun ⟨hop, hargs⟩ => ?_⟩
  rw [← opField_toNat] at hop
  cases i with
  | init count size =>
    obtain ⟨rfl, rfl⟩ := hargs
    simp [decode, hop, Instr.opcode]
  | write len | read len | peek len =>
    cases hargs
    simp [decode, hop, Instr.opcode]
  | destroy | capacity | available | unused | isEmpty | isFull => simp [decode, hop, Instr.opcode]

theorem arg0Field_eq_iff (w : CmdWord) (a : Word) : arg0Field w = a ↔ w.toNat % 2 ^ 32 = a.toNat := by
  rw [← BitVec.toNat_inj, arg0Field_toNat]

theorem arg1Field_eq_iff (w : CmdWord) (a : Word) : arg1Field w = a ↔ w.toNat / 2 ^ 32 % 2 ^ 32 = a.toNat := by
  rw [← BitVec.toNat_inj, arg1Field_toNat]

/-- A command without operands is known by its `op` alone (R89). -/
theorem decode_eq_instr_iff_op {w : CmdWord} {i : Instr} (noOperand : i.OperandsIn w) :
    decode w = .instr i ↔ w.toNat / 2 ^ 64 = i.opcode.toNat := by
  rw [decode_eq_instr_iff, and_iff_left noOperand]

/-- No command's `op` is one of the reserved ones (R85, R87). -/
theorem Instr.opcode_defined (i : Instr) : 0x01 ≤ i.opcode.toNat ∧ i.opcode.toNat ≤ 0x0A := by
  cases i <;> simp [Instr.opcode]

/-- A word with a reserved `op` decodes to no command (R87). -/
theorem decode_ne_instr_of_reserved {w : CmdWord} (h : w.toNat / 2 ^ 64 = 0x00 ∨ 0x0B ≤ w.toNat / 2 ^ 64) (i : Instr) :
    decode w ≠ .instr i := by
  intro hd
  have hop := (opcode_and_operands_of_decode hd).1
  have hrange := i.opcode_defined
  omega

end Sys2Proof

namespace Sys2Proof.Machine

variable {s t : State}

/-! ### A rejected command -/

theorem State.answeredOnly_respond (s : State) (q : Port) (st : Status) (v : Word) :
    AnsweredOnly s (s.respond q st v) q { status := st, value := v } where
  answer    := SameChannels.oneAnswer_respond (fun _ => rfl) q st v
  registers := s.sameRegisters_respond q st v
  storage   := s.sameStorage_respond q st v
  transfers := s.sameTransfers_respond q st v
  data      := s.sameData_respond q st v
  book      := s.sameBook_respond q st v

/-- A word that decodes to no command is answered IllegalCommand (R87). -/
theorem runCommand_rejected {w : CmdWord} (h : ∀ i, decode w ≠ .instr i) :
    runCommand w s = .next (s.respond s.port .illegalCommand 0) := by
  unfold runCommand
  split
  · next i hd => exact absurd hd (h i)
  · rfl

theorem onPorts_rejected {allowed : List Port} {body : State → Outcome} (h : s.port ∉ allowed) :
    onPorts allowed s body = .next (s.respond s.port .illegalCommand 0) := if_neg h

/-- A command on a port that R80 does not allow is answered IllegalCommand (R88). -/
theorem exec_rejected {i : Instr} (h : i.legalOn s.port = false) :
    exec i s = .next (s.respond s.port .illegalCommand 0) := by
  cases i with
  | init | destroy | write | read | peek =>
    unfold exec
    refine onPorts_rejected ?_
    simpa [Instr.legalOn] using h
  | capacity | available | unused | isEmpty | isFull => cases h

/-! ### The account of a port's commands -/

/-- The commands a port has been given and still shows: those it has not answered, and the responses to the others (R81). -/
def State.accounted (s : State) (q : Port) : Nat := s.unanswered q + (s.chan q).rsp.length

theorem State.accounted_K (s : State) : s.accounted .K = s.portK.cmds.length + s.portK.rsp.length := rfl

theorem State.accounted_P (s : State) :
    s.accounted .P = s.portP.cmds.length + (if s.pXfer.isSome then 1 else 0) + s.portP.rsp.length := rfl

theorem State.accounted_C (s : State) :
    s.accounted .C = s.portC.cmds.length + (if s.cXfer.isSome then 1 else 0) + s.portC.rsp.length := rfl

/-- A response is one more on its own port's account. -/
theorem State.accounted_respond (s : State) (q : Port) (st : Status) (v : Word) :
    (s.respond q st v).accounted q = s.accounted q + 1 := by
  unfold State.accounted State.unanswered
  rw [State.respond_chan_same]
  cases q <;> simp [Nat.add_assoc]

/-- Taking a command word takes one off its port's account, which the command's first step gives back (R81). -/
theorem State.accounted_accept {q : Port} {c : CmdIn} {rest : List CmdIn} (cmds : (s.chan q).cmds = c :: rest) :
    (s.spendTurn.accept q c rest).accounted q + 1 = s.accounted q := by
  unfold State.accounted State.unanswered
  rw [State.accept_chan_same, State.spendTurn_chan, cmds]
  cases q <;> simp <;> omega

/-- What a step of port `q` keeps of the other ports includes their accounts. -/
theorem OthersKept.accounted_eq {p q : Port} (kept : OthersKept q s t) (h : p ≠ q) : t.accounted p = s.accounted p := by
  cases p with
  | K =>
    obtain ⟨hchan, -⟩ := kept.host h.symm
    rw [State.accounted_K, State.accounted_K, hchan]
  | P =>
    obtain ⟨hx, -, -, hchan⟩ := kept.producer h.symm
    rw [State.accounted_P, State.accounted_P, hx, hchan]
  | C =>
    obtain ⟨hy, -, hchan⟩ := kept.consumer h.symm
    rw [State.accounted_C, State.accounted_C, hy, hchan]

/-- The first step of a command answers it or leaves it in flight (R60, R81). -/
theorem CommandEffect.accounted_eq (e : CommandEffect s t) (idle : s.IdleAt s.port) :
    t.accounted s.port = s.accounted s.port + 1 := by
  cases e with
  | answered st v => exact s.accounted_respond _ _ _
  | writeBegun len port =>
    rw [port, State.accounted_P, State.accounted_P, idle.1 port]
    simp; omega
  | readBegun kind len port =>
    rw [port, State.accounted_C, State.accounted_C, idle.2 port]
    simp; omega
  | constructed count size cap port =>
    rw [State.accounted_respond, port]
    rfl
  | destroyed port =>
    rw [State.accounted_respond, port]
    rfl

/-- A step of a port keeps the port's own account (R81). -/
theorem StepEffect.accounted_own {q : Port} (e : StepEffect s t) (turn : s.turn = .port q) :
    t.accounted q = s.accounted q := by
  have same_port {p : Port} (ht : s.turn = .port p) : q = p := Turn.port.inj (turn.symm.trans ht)
  cases e with
  | reset ht => exact absurd (turn.symm.trans ht) nofun
  | stored x ht busy => rw [same_port ht, State.accounted_P, State.accounted_P, busy]; rfl
  | loaded y ht busy => rw [same_port ht, State.accounted_C, State.accounted_C, busy]; rfl
  | writePublished x ht busy =>
    rw [same_port ht, State.accounted_respond, State.accounted_P, State.accounted_P, busy]
    simp; omega
  | readPublished y ht busy | peekEnded y ht busy =>
    rw [same_port ht, State.accounted_respond, State.accounted_C, State.accounted_C, busy]
    simp; omega
  | idle p ht => cases q <;> rfl
  | command p c rest t ht free cmds run effect =>
    cases same_port ht
    have given := effect.accounted_eq ⟨fun hp => by simpa using free.1 (by simpa using hp),
      fun hp => by simpa using free.2 (by simpa using hp)⟩
    rw [State.accept_port] at given
    exact given.trans (State.accounted_accept cmds)

/-- A step of a port keeps every port's account. -/
theorem step_accounted {q : Port} (h : step s = .next t) (turn : s.turn = .port q) (p : Port) :
    t.accounted p = s.accounted p := by
  have e := step_effect h
  by_cases hp : p = q
  · exact hp ▸ e.accounted_own turn
  · exact (e.othersKept turn).accounted_eq hp

end Sys2Proof.Machine

namespace Sys2Proof.Proofs
open Sys2Proof.Machine

/-- Settles O3: the decoder's inverse, with each field that a command uses written as a number. -/
theorem ignoredFieldsAreNotExamined : Obligations.IgnoredFieldsAreNotExamined := by
  unfold Obligations.IgnoredFieldsAreNotExamined
  intro w
  have oneOperand {i : Instr} {len : Word} (operand : i.OperandsIn w = (arg0Field w = len)) :
      decode w = .instr i ↔ w.toNat / 2 ^ 64 = i.opcode.toNat ∧ w.toNat % 2 ^ 32 = len.toNat := by
    rw [decode_eq_instr_iff, operand, arg0Field_eq_iff]
  refine ⟨fun count size => ?_, decode_eq_instr_iff_op trivial, fun len => oneOperand rfl, fun len => oneOperand rfl,
    fun len => oneOperand rfl, decode_eq_instr_iff_op trivial, decode_eq_instr_iff_op trivial,
    decode_eq_instr_iff_op trivial, decode_eq_instr_iff_op trivial, decode_eq_instr_iff_op trivial⟩
  have hcount := count.isLt
  have hsize := size.isLt
  rw [decode_eq_instr_iff]
  simp only [Instr.OperandsIn, arg0Field_eq_iff, arg1Field_eq_iff, Instr.opcode, BitVec.reduceToNat]
  omega

/-- Settles O6: on each of these ports the command is not legal. -/
theorem wrongPortAnswersIllegalCommand : Obligations.WrongPortAnswersIllegalCommand := by
  unfold Obligations.WrongPortAnswersIllegalCommand
  intro s i a b h
  have illegal : i.legalOn s.port = false := by
    rcases h with ⟨hp, hi⟩ | ⟨hp, hi⟩ | ⟨hp, hi⟩ <;> rw [hp]
    · rcases hi with rfl | rfl | rfl | rfl <;> rfl
    · rcases hi with rfl | rfl | rfl <;> rfl
    · rcases hi with rfl | rfl | rfl <;> rfl
  exact ⟨_, exec_rejected illegal, s.answeredOnly_respond _ _ _⟩

/-- Settles O44: the account of every port is kept by every port's step. -/
theorem oneResponseForEachCommand : Obligations.OneResponseForEachCommand := by
  unfold Obligations.OneResponseForEachCommand
  intro s t hstep hturn q
  cases turn : s.turn with
  | port p => exact step_accounted hstep turn q
  | reset => exact absurd turn hturn

/-- Settles O5: a reserved `op` is no command's, so the word is rejected. -/
theorem reservedOpcodeAnswersIllegalCommand : Obligations.ReservedOpcodeAnswersIllegalCommand := by
  unfold Obligations.ReservedOpcodeAnswersIllegalCommand
  intro w s h
  exact ⟨_, runCommand_rejected (decode_ne_instr_of_reserved h), s.answeredOnly_respond _ _ _⟩

end Sys2Proof.Proofs
end

section
/-! SUPPORT. What INIT and DESTROY answer in each case of R110 and R117, the capacity that INIT asks for (R112, R113), and what
the commands that need a live buffer answer without one (R186). -/

namespace Sys2Proof.Machine

variable {s t : State}

/-! ### The guards -/

/-- One of ports P and C is in COPY (R187). -/
theorem State.inFlight_iff : s.inFlight = true ↔ s.pXfer ≠ none ∨ s.cXfer ≠ none := by
  simp [State.inFlight, Option.isSome_iff_ne_none]

theorem State.inFlight_eq_false (hx : s.pXfer = none) (hy : s.cXfer = none) : s.inFlight = false := by
  simp [State.inFlight, hx, hy]

theorem onPorts_allowed {allowed : List Port} {body : State → Outcome} (h : s.port ∈ allowed) :
    onPorts allowed s body = body s := if_pos h

theorem whenAlive_dead {body : State → Outcome} (dead : s.alive = false) :
    whenAlive s body = .next (s.respond s.port .invalidState 0) := if_neg (by simp [dead])

/-- Without a live buffer a command other than INIT and DESTROY is answered InvalidState on a port that allows it (R186). -/
theorem exec_dead {i : Instr} (dead : s.alive = false) (legal : i.legalOn s.port = true)
    (notInit : ∀ count size, i ≠ .init count size) (notDestroy : i ≠ .destroy) :
    exec i s = .next (s.respond s.port .invalidState 0) := by
  cases i with
  | init count size => exact absurd rfl (notInit count size)
  | destroy => exact absurd rfl notDestroy
  | write | read | peek =>
    unfold exec
    refine (onPorts_allowed ?_).trans (whenAlive_dead dead)
    simpa [Instr.legalOn] using legal
  | capacity | available | unused | isEmpty | isFull =>
    simp [exec, execCapacity, execAvailable, execUnused, execIsEmpty, execIsFull, query_eq, dead]

/-! ### The capacity that INIT asks for -/

/-- `npot` is named by its exponent, the least one that reaches the argument (R16). -/
theorem npot_eq_of_least {x n : Nat} (reaches : x ≤ 2 ^ n) (least : ∀ m, x ≤ 2 ^ m → n ≤ m) : npot x = 2 ^ n := by
  obtain ⟨k, hk⟩ := npot_pow2 x
  have hnk : n ≤ k := least k (hk ▸ le_npot x)
  exact (npot_le reaches).antisymm (hk ▸ Nat.pow_le_pow_right (by decide) hnk)

/-- Dynamic backing rounds the exact product up, to at most `MAX_CAP` (R112). -/
theorem capacityFor_dynamic {b : Build} (dynamic : b.backing = .dynamic) (count size : Word) :
    capacityFor b count size =
      if npot (count.toNat * size.toNat) ≤ b.maxCap then .ok (npot (count.toNat * size.toNat))
      else .error .allocationFailure := by
  simp only [capacityFor, dynamic]

/-- Static backing takes the floor quotient, if that is a power of two (R113). -/
theorem capacityFor_static {b : Build} (static : b.backing = .static) (count size : Word) :
    capacityFor b count size =
      if isPow2 (b.fixedLength / size.toNat) then .ok (b.fixedLength / size.toNat)
      else .error .invalidConfiguration := by
  simp only [capacityFor, static]

/-! ### INIT -/

/-- INIT on a live buffer or beside a transfer in flight (R111). -/
theorem execInit_refused {count size : Word} (port : s.port = .K) (busy : s.alive = true ∨ s.inFlight = true) :
    execInit count size s = .next (s.respond .K .invalidState 0) := by
  have guard : (s.alive || s.inFlight) = true := by simpa using busy
  unfold execInit
  rw [onPorts_allowed (by simp [port]), if_pos guard, port, State.raise_eq]

/-- `t` is `s` with a buffer of `2^n` bytes constructed and INIT answered OK (R114). -/
def ConstructedFrom (s t : State) (n : Nat) (size : Word) : Prop :=
  t.alive = true ∧ t.capacity.toNat = 2 ^ n ∧ t.elementSize = size ∧ t.mask.toNat = 2 ^ n - 1 ∧
  t.writeCursor = 0 ∧ t.readCursor = 0 ∧ (∀ a, Memory.load? t.storage a = none) ∧
  OneAnswer s t .K { status := .ok, value := 0 } ∧ SameTransfers s t ∧ SameData s t ∧ SameBook s t

/-- A response on top of a state that differs from `s` in registers and cells only. -/
theorem SameTransfers.frame_respond (transfers : SameTransfers s t) (data : SameData s t) (book : SameBook s t)
    (channels : SameChannels s t) (q : Port) (st : Status) (v : Word) :
    OneAnswer s (t.respond q st v) q { status := st, value := v } ∧ SameTransfers s (t.respond q st v) ∧
      SameData s (t.respond q st v) ∧ SameBook s (t.respond q st v) :=
  ⟨channels.oneAnswer_respond q st v, transfers.trans (t.sameTransfers_respond q st v),
    data.trans (t.sameData_respond q st v), book.trans (t.sameBook_respond q st v)⟩

/-- The registers of `construct` hold a capacity of up to `2^(W-1)` as it is (R11, R114). -/
theorem State.construct_constructedFrom (s : State) {n : Nat} (hn : n ≤ 31) (size : Word) :
    ConstructedFrom s ((s.construct (2 ^ n) size).respond .K .ok 0) n size := by
  have hcap : (s.construct (2 ^ n) size).capacity.toNat = 2 ^ n :=
    Nat.mod_eq_of_lt (Nat.pow_lt_pow_right (by decide) (by omega))
  obtain ⟨m, -, hm, hmask⟩ := (LiveInv.construct (s := s) hn rfl size).nat
  rw [← hm, hcap] at hmask
  have frame : SameTransfers s (s.construct (2 ^ n) size) := ⟨rfl, rfl⟩
  exact ⟨rfl, hcap, rfl, hmask, rfl, rfl, fun _ => rfl,
    frame.frame_respond ⟨fun _ => rfl, rfl, rfl⟩ ⟨rfl, rfl, rfl, rfl⟩ (fun q => s.construct_chan q _ _) .K .ok 0⟩

section
variable {count size : Word} (port : s.port = .K) (dead : s.alive = false) (hx : s.pXfer = none) (hy : s.cXfer = none)
  (hcount : count ≠ 0) (hsize : size ≠ 0)
include port dead hx hy hcount hsize

/-- Past the guards of R111 and R182, INIT answers what its capacity fails with, or constructs it (R110). -/
theorem execInit_of_capacityFor :
    (∀ e, capacityFor s.build count size = .error e → execInit count size s = .next (s.respond .K e 0)) ∧
    (∀ cap, capacityFor s.build count size = .ok cap →
      execInit count size s = .next ((s.construct cap size).respond .K .ok 0)) := by
  have guard : ¬ (s.alive || s.inFlight) = true := by simp [dead, State.inFlight_eq_false hx hy]
  have arguments : ¬ (count = 0 ∨ size = 0) := not_or.2 ⟨hcount, hsize⟩
  unfold execInit
  rw [onPorts_allowed (by simp [port]), if_neg guard, if_neg arguments, port]
  constructor
  · intro e fails
    rw [fails]
    rfl
  · intro cap fits
    rw [fits]

/-- INIT answers the status with which its capacity fails, and nothing else (R180). -/
theorem execInit_fails {e : Status} (fails : capacityFor s.build count size = .error e) :
    ∃ t, execInit count size s = .next t ∧ AnsweredOnly s t .K { status := e, value := 0 } :=
  ⟨_, (execInit_of_capacityFor port dead hx hy hcount hsize).1 e fails, s.answeredOnly_respond _ _ _⟩

/-- INIT constructs the buffer whose capacity it computes; on a valid build the registers can hold it (R11, R114). -/
theorem execInit_constructs {n : Nat} (valid : s.build.Valid) (fits : capacityFor s.build count size = .ok (2 ^ n)) :
    ∃ t, execInit count size s = .next t ∧ ConstructedFrom s t n size := by
  obtain ⟨m, hm, hpow⟩ := capacityFor_ok valid fits
  have hnm : n = m := Nat.pow_right_injective (le_refl 2) hpow
  exact ⟨_, (execInit_of_capacityFor port dead hx hy hcount hsize).2 _ fits,
    s.construct_constructedFrom (hnm ▸ hm) size⟩

end

/-! ### DESTROY -/

section
variable (port : s.port = .K)
include port

/-- DESTROY beside a transfer in flight (R117). -/
theorem execDestroy_refused (busy : s.inFlight = true) : execDestroy s = .next (s.respond .K .invalidState 0) := by
  unfold execDestroy
  rw [onPorts_allowed (by simp [port]), if_pos busy, port, State.raise_eq]

/-- DESTROY with nothing in flight (R117, R118). -/
theorem execDestroy_idle (hx : s.pXfer = none) (hy : s.cXfer = none) :
    execDestroy s = .next (if s.alive then
      { s with alive := false, writeCursor := 0, readCursor := 0 }.respond .K .ok 0 else s.respond .K .ok 0) := by
  have idle : ¬ s.inFlight = true := by simp [State.inFlight_eq_false hx hy]
  unfold execDestroy
  rw [onPorts_allowed (by simp [port]), if_neg idle, port]
  split <;> rfl

end

end Sys2Proof.Machine

namespace Sys2Proof.Proofs
open Sys2Proof.Machine

/-- Settles O11: `npot` of the exact product is `2^n`, and `MAX_CAP` decides. -/
theorem initWithDynamicBacking : Obligations.InitWithDynamicBacking := by
  unfold Obligations.InitWithDynamicBacking
  intro s count size n port dead hx hy valid backing hcount hsize reaches least
  have capacity := capacityFor_dynamic backing count size
  rw [npot_eq_of_least reaches least] at capacity
  by_cases fits : 2 ^ n ≤ s.build.maxCap
  · rw [if_pos fits] at capacity
    obtain ⟨t, ht, constructed⟩ := execInit_constructs port dead hx hy hcount hsize valid capacity
    exact ⟨t, ht, fun _ => constructed, fun above => absurd fits (Nat.not_le.2 above)⟩
  · rw [if_neg fits] at capacity
    obtain ⟨t, ht, answered⟩ := execInit_fails port dead hx hy hcount hsize capacity
    exact ⟨t, ht, fun h => absurd h fits, fun _ => answered⟩

/-- Settles O12: the quotient is constructed exactly when it is a power of two. -/
theorem initWithStaticBacking : Obligations.InitWithStaticBacking := by
  unfold Obligations.InitWithStaticBacking
  intro s count size port dead hx hy valid backing hcount hsize
  have capacity := capacityFor_static backing count size
  by_cases pow2 : ∃ n, s.build.fixedLength / size.toNat = 2 ^ n
  · rw [if_pos ((isPow2_iff _).2 pow2)] at capacity
    obtain ⟨n, quotient⟩ := pow2
    rw [quotient] at capacity
    obtain ⟨t, ht, constructed⟩ := execInit_constructs port dead hx hy hcount hsize valid capacity
    refine ⟨t, ht, fun m hm => ?_, fun notPow2 => absurd quotient (notPow2 n)⟩
    have hnm : n = m := Nat.pow_right_injective (le_refl 2) (quotient.symm.trans hm)
    exact hnm ▸ constructed
  · rw [if_neg (mt (isPow2_iff _).1 pow2)] at capacity
    obtain ⟨t, ht, answered⟩ := execInit_fails port dead hx hy hcount hsize capacity
    exact ⟨t, ht, fun n hn => absurd ⟨n, hn⟩ pow2, fun _ => answered⟩

/-- Settles O14: the guards of INIT and DESTROY answer before anything is written. -/
theorem lifecycleRefusedInFlight : Obligations.LifecycleRefusedInFlight := by
  unfold Obligations.LifecycleRefusedInFlight
  intro s count size port
  constructor
  · intro busy
    exact ⟨_, execInit_refused port (busy.imp_right State.inFlight_iff.2), s.answeredOnly_respond _ _ _⟩
  · intro busy
    exact ⟨_, execDestroy_refused port (State.inFlight_iff.2 busy), s.answeredOnly_respond _ _ _⟩

/-- Settles O15: DESTROY is refused in flight, and else turns on whether the buffer is alive. -/
theorem destroyResult : Obligations.DestroyResult := by
  unfold Obligations.DestroyResult
  intro s port
  by_cases busy : s.inFlight = true
  · have notIdle (hx : s.pXfer = none) (hy : s.cXfer = none) : False := by
      simp [State.inFlight_eq_false hx hy] at busy
    exact ⟨_, execDestroy_refused port busy, fun _ => s.answeredOnly_respond _ _ _,
      fun hx hy => (notIdle hx hy).elim, fun hx hy => (notIdle hx hy).elim⟩
  · obtain ⟨hx, hy⟩ := State.not_inFlight (Bool.eq_false_of_not_eq_true busy)
    refine ⟨_, execDestroy_idle port hx hy, fun h => absurd (State.inFlight_iff.2 h) busy, fun _ _ alive => ?_,
      fun _ _ dead => ?_⟩
    · rw [if_pos alive]
      have frame : SameTransfers s { s with alive := false, writeCursor := 0, readCursor := 0 } := ⟨rfl, rfl⟩
      exact ⟨rfl, rfl, rfl, rfl, rfl, rfl, ⟨rfl, fun _ => rfl⟩,
        frame.frame_respond ⟨fun _ => rfl, rfl, rfl⟩ ⟨rfl, rfl, rfl, rfl⟩ (fun _ => rfl) .K .ok 0⟩
    · rw [if_neg (by simp [dead])]
      exact s.answeredOnly_respond _ _ _

/-- Settles O16: each of these commands is legal on its port and is neither INIT nor DESTROY. -/
theorem deadBufferAnswersInvalidState : Obligations.DeadBufferAnswersInvalidState := by
  unfold Obligations.DeadBufferAnswersInvalidState
  intro s i len dead hi
  obtain ⟨legal, notInit, notDestroy⟩ :
      i.legalOn s.port = true ∧ (∀ count size, i ≠ .init count size) ∧ i ≠ .destroy := by
    rcases hi with ⟨rfl, port⟩ | ⟨rfl, port⟩ | ⟨rfl, port⟩ | rfl | rfl | rfl | rfl | rfl
    · exact ⟨by rw [port]; rfl, nofun, nofun⟩
    · exact ⟨by rw [port]; rfl, nofun, nofun⟩
    · exact ⟨by rw [port]; rfl, nofun, nofun⟩
    all_goals exact ⟨rfl, nofun, nofun⟩
  exact ⟨_, exec_dead dead legal notInit notDestroy, s.answeredOnly_respond _ _ _⟩

end Sys2Proof.Proofs
end

section
/-! PROOF. WRITE, READ and PEEK with no other port's step between: the SAMPLE of R61 and R62, and the copy steps, run to the
response, as the function forms of R130, R136 and R142. -/

namespace Sys2Proof.Machine

variable {s t : State} {x : WriteXfer} {y : ReadXfer}

/-! ### Turns in a row -/

theorem portTurns_succ {q : Port} {n : Nat} (h : portTurn q s = .next t) : portTurns q (n + 1) s = portTurns q n t := by
  rw [portTurns, h]

theorem portTurns_one {q : Port} (h : portTurn q s = .next t) : portTurns q 1 s = .next t := portTurns_succ h

theorem portTurn_write (busy : s.pXfer = some x) : portTurn .P s = pCopyStep x s := by
  rw [portTurn, busy]

theorem portTurn_readOrPeek (busy : s.cXfer = some y) : portTurn .C s = cCopyStep y s := by
  rw [portTurn, busy]

/-! ### WRITE's copy, run to its response -/

/-- The bytes of a list of indices stored one after the other at their positions from a cursor (R61). -/
def storeAt (mask base : Word) (byte : Nat → Byte) (ks : List Nat) (m : Memory) : Memory :=
  ks.foldl (fun m k => Memory.store m (off mask base (BitVec.ofNat 32 k)).toNat (byte k)) m

/-- The state after the STOREs of a list of indices and the PUBLISH with its response (R61). -/
def State.writeFinished (s : State) (x : WriteXfer) (ks : List Nat) : State :=
  ({ s with
    storage := storeAt s.mask x.base s.srcByte ks s.storage
    srcIdx  := s.srcIdx ++ ks.map (BitVec.ofNat 32) }.writePublished x).respond .P .ok x.eff

/-- A STORE is the first of the STOREs that are left. -/
theorem State.writeFinished_stored (s : State) (x : WriteXfer) (ks : List Nat) :
    (s.stored x).writeFinished { x with i := x.i + 1 } ks = s.writeFinished x (x.i.toNat :: ks) := by
  simp [State.writeFinished, State.stored, State.writePublished, storeAt, State.srcByte]

/-- Port P's turns, as many as are left of its WRITE, store the indices that are left and publish (R61). -/
theorem LiveInv.portTurns_write {m : Nat} (h : LiveInv s) (busy : s.pXfer = some x) (left : x.i.toNat + m = x.eff.toNat) :
    portTurns .P (m + 1) s = .next (s.writeFinished x (List.range' x.i.toNat m)) := by
  induction m generalizing s x with
  | zero =>
    have hi : x.i = x.eff := BitVec.eq_of_toNat_eq left
    rw [portTurns_one ((portTurn_write busy).trans (pCopyStep_publish hi))]
    simp [State.writeFinished, storeAt]
  | succ m ih =>
    have hi : x.i < x.eff := by
      rw [BitVec.lt_def]
      omega
    have hnext := toNat_add_one_of_lt hi
    have hcell := h.off_lt x.base x.i
    have first : portTurn .P s = .next (s.stored x) := (portTurn_write busy).trans (pCopyStep_store hi hcell)
    have left' : (x.i + 1).toNat + m = x.eff.toNat := by omega
    rw [portTurns_succ first, ih (h.stored hcell) rfl left', s.writeFinished_stored, hnext, List.range'_succ]

/-- A chunk of R130 whose cells are the positions of its indices is the STOREs of those indices in order (R53). -/
theorem storeRun_eq_storeAt {mask base : Word} {n o k : Nat} (byte : Nat → Byte) (m : Memory)
    (cells : ∀ j, j < n → (off mask base (BitVec.ofNat 32 (k + j))).toNat = o + j) :
    storeRun byte n o k m = storeAt mask base byte (List.range' k n) m := by
  induction n generalizing o k m with
  | zero => rfl
  | succ n ih =>
    have hfirst : (off mask base (BitVec.ofNat 32 k)).toNat = o := cells 0 (Nat.succ_pos n)
    rw [storeRun, List.range'_succ, storeAt, List.foldl_cons, hfirst]
    refine ih _ fun j hj => ?_
    rw [Nat.succ_add_eq_add_succ, cells (j + 1) (by omega)]
    omega

/-- WRITE's two chunks are the STOREs of all its indices, in order (R53, R130). -/
theorem LiveInv.wholeStore_eq (h : LiveInv s) {eff : Word} (he : eff ≤ s.capacity) :
    s.wholeStore eff = storeAt s.mask s.writeCursor s.srcByte (List.range eff.toNat) s.storage := by
  have hsum := chunk1_add_chunk2 s.capacity s.mask s.writeCursor eff
  have cells1 : ∀ j, j < (chunk1 s.capacity s.mask s.writeCursor eff).toNat →
      (off s.mask s.writeCursor (BitVec.ofNat 32 (0 + j))).toNat = (s.writeCursor &&& s.mask).toNat + j := fun j hj => by
    rw [Nat.zero_add, h.off_chunk1 _ hj]
  have cells2 : ∀ j, j < (chunk2 s.capacity s.mask s.writeCursor eff).toNat →
      (off s.mask s.writeCursor
        (BitVec.ofNat 32 ((chunk1 s.capacity s.mask s.writeCursor eff).toNat + j))).toNat = 0 + j := fun j hj => by
    rw [Nat.zero_add, h.off_chunk2 _ he hj]
  rw [State.wholeStore, storeRun_eq_storeAt _ _ cells1, storeRun_eq_storeAt _ _ cells2, ← hsum, List.range_eq_range',
    ← List.range'_append_1, Nat.zero_add, storeAt, storeAt, storeAt, List.foldl_append]

theorem LiveInv.writeEff_le (h : LiveInv s) (len : Word) : s.writeEff len ≤ s.capacity :=
  (Nat.le_add_left _ _).trans (h.writeEff_room len)

/-- The state after a WRITE's SAMPLE with something to move (R61). -/
def State.writeBegun (s : State) (len : Word) : State :=
  { s with pXfer := some { base := s.writeCursor, eff := s.writeEff len, i := 0 } }

/-- WRITE as a function is its STOREs and its PUBLISH, from the SAMPLE on (R130). -/
theorem LiveInv.wholeWrite_eq (h : LiveInv s) (len : Word) (idle : s.pXfer = none) :
    s.wholeWrite len = (s.writeBegun len).writeFinished { base := s.writeCursor, eff := s.writeEff len, i := 0 }
      (List.range (s.writeEff len).toNat) := by
  simp only [State.wholeWrite, h.wholeStore_eq (h.writeEff_le len), State.writeFinished, State.writePublished,
    State.writeBegun, idle]
  rfl

/-- A WRITE with nothing to move is its response (R131). -/
theorem LiveInv.wholeWrite_of_empty (h : LiveInv s) {len : Word} (he : s.writeEff len = 0) :
    s.wholeWrite len = s.respond .P .ok 0 := by
  have nothing : s.wholeStore 0#32 = s.storage := h.wholeStore_eq (Nat.zero_le _)
  simp [State.wholeWrite, he, nothing]

/-! ### READ's and PEEK's copy, run to its response -/

/-- The state after the last turn of a READ or PEEK with its response (R62). -/
def State.readEnded (s : State) (y : ReadXfer) : State :=
  match y.kind with
  | .read => (s.readPublished y).respond .C .ok y.eff
  | .peek => { s with cXfer := none }.respond .C .ok 0

theorem cCopyStep_end (hi : y.i = y.eff) : cCopyStep y s = .next (s.readEnded y) := by
  unfold State.readEnded
  split
  · next hk => exact cCopyStep_readPublish hi hk
  · next hk => exact cCopyStep_peekEnd hi hk

/-- The state after the LOADs of a list of indices and the last turn (R62). -/
def State.readFinished (s : State) (y : ReadXfer) (ks : List Nat) : State :=
  { s with dst := s.dst ++ ks.map fun k => (BitVec.ofNat 32 k, s.logicalByte y.base k) }.readEnded y

/-- A LOAD is the first of the LOADs that are left. -/
theorem State.readFinished_loaded (s : State) (y : ReadXfer) (ks : List Nat) :
    (s.loaded y).readFinished { y with i := y.i + 1 } ks = s.readFinished y (y.i.toNat :: ks) := by
  simp [State.readFinished, State.loaded, State.readEnded, State.readPublished, State.logicalByte, State.byteAt]

/-- Port C's turns, as many as are left of its READ or PEEK, load the indices that are left and end it (R62). -/
theorem LiveInv.portTurns_read {m : Nat} (h : LiveInv s) (busy : s.cXfer = some y) (left : y.i.toNat + m = y.eff.toNat) :
    portTurns .C (m + 1) s = .next (s.readFinished y (List.range' y.i.toNat m)) := by
  induction m generalizing s y with
  | zero =>
    have hi : y.i = y.eff := BitVec.eq_of_toNat_eq left
    rw [portTurns_one ((portTurn_readOrPeek busy).trans (cCopyStep_end hi))]
    simp [State.readFinished]
  | succ m ih =>
    have hi : y.i < y.eff := by
      rw [BitVec.lt_def]
      omega
    have hnext := toNat_add_one_of_lt hi
    have first : portTurn .C s = .next (s.loaded y) :=
      (portTurn_readOrPeek busy).trans (cCopyStep_load hi (h.off_lt y.base y.i))
    have live : LiveInv (s.loaded y) := h.congr ⟨rfl, rfl, rfl, rfl, rfl, rfl⟩ ⟨rfl, fun _ => rfl⟩
    have left' : (y.i + 1).toNat + m = y.eff.toNat := by omega
    rw [portTurns_succ first, ih live rfl left', s.readFinished_loaded, hnext, List.range'_succ]

/-- The state after the SAMPLE of a READ or PEEK with something to move (R62). -/
def State.readBegun (s : State) (kind : ReadKind) (len : Word) : State :=
  { s with cXfer := some { kind := kind, base := s.readCursor, eff := s.readEff len, i := 0 } }

/-- READ or PEEK as a function (R136, R142). -/
def State.wholeReadOrPeek (s : State) (len : Word) : ReadKind → State
  | .read => s.wholeRead len
  | .peek => s.wholePeek len

/-- READ or PEEK as a function is its LOADs and its last turn, from the SAMPLE on (R136, R142). -/
theorem LiveInv.wholeReadOrPeek_eq (h : LiveInv s) (len : Word) (idle : s.cXfer = none) (kind : ReadKind) :
    s.wholeReadOrPeek len kind = (s.readBegun kind len).readFinished
      { kind := kind, base := s.readCursor, eff := s.readEff len, i := 0 } (List.range (s.readEff len).toNat) := by
  have he : s.readEff len ≤ s.capacity := BitVec.le_trans (s.readEff_le len) h.bound
  cases kind <;>
    simp only [State.wholeReadOrPeek, State.wholeRead, State.wholePeek, h.wholeLoad_eq he, State.readFinished,
      State.readEnded, State.readPublished, State.readBegun, idle] <;> rfl

/-- A READ or PEEK with nothing to move is its response (R137, R143). -/
theorem LiveInv.wholeReadOrPeek_of_empty (h : LiveInv s) {len : Word} (he : s.readEff len = 0) (kind : ReadKind) :
    s.wholeReadOrPeek len kind = s.respond .C .ok 0 := by
  have nothing : s.wholeLoad 0#32 = [] := h.wholeLoad_eq (Nat.zero_le _)
  cases kind <;> simp [State.wholeReadOrPeek, State.wholeRead, State.wholePeek, he, nothing]

/-- READ or PEEK, run from SAMPLE to response, is its function. -/
theorem LiveInv.readOrPeek_runs (h : LiveInv s) (port : s.port = .C) (alive : s.alive = true) (idle : s.cXfer = none)
    (len : Word) (kind : ReadKind) :
    ∃ t, onPorts [.C] s (fun s => whenAlive s (cSample kind len)) = .next t ∧
      portTurns .C (if s.readEff len = 0 then 0 else (s.readEff len).toNat + 1) t =
        .next (s.wholeReadOrPeek len kind) := by
  by_cases he : s.readEff len = 0
  · rw [if_pos he, h.wholeReadOrPeek_of_empty he]
    exact ⟨_, readOrPeek_empty port alive idle he, rfl⟩
  · have begun : LiveInv (s.readBegun kind len) := h.congr ⟨rfl, rfl, rfl, rfl, rfl, rfl⟩ ⟨rfl, fun _ => rfl⟩
    rw [if_neg he, h.wholeReadOrPeek_eq len idle, List.range_eq_range']
    exact ⟨_, readOrPeek_begins port alive idle he, begun.portTurns_read rfl (Nat.zero_add _)⟩

/-! ### SAMPLE -/

/-- WRITE's effective length, as long as the bound of R35 holds (R131). -/
theorem State.writeEff_toNat_of_bound (bound : s.available ≤ s.capacity) (len : Word) :
    (s.writeEff len).toNat = min len.toNat (s.capacity.toNat - s.available.toNat) := by
  rw [State.writeEff, wmin_toNat]
  exact congrArg _ (BitVec.toNat_sub_of_le bound)

/-- A WRITE has nothing to move exactly when it asks for nothing or the buffer is full (R131). -/
theorem State.writeEff_toNat_eq_zero_iff (bound : s.available ≤ s.capacity) (len : Word) :
    (s.writeEff len).toNat = 0 ↔ len = 0 ∨ s.available = s.capacity := by
  have hle : s.available.toNat ≤ s.capacity.toNat := bound
  rw [State.writeEff_toNat_of_bound bound, ← BitVec.toNat_inj (x := len), ← BitVec.toNat_inj (x := s.available),
    show (0 : Word).toNat = 0 from rfl]
  omega

/-- A READ or PEEK has nothing to move exactly when it asks for nothing or the buffer is empty (R137, R143). -/
theorem State.readEff_toNat_eq_zero_iff (s : State) (len : Word) :
    (s.readEff len).toNat = 0 ↔ len = 0 ∨ s.writeCursor = s.readCursor := by
  have hempty : s.available = 0 ↔ s.writeCursor = s.readCursor := sub_eq_zero
  rw [s.readEff_toNat, ← hempty, ← BitVec.toNat_inj (x := len), ← BitVec.toNat_inj (x := s.available),
    show (0 : Word).toNat = 0 from rfl]
  omega

end Sys2Proof.Machine

namespace Sys2Proof.Proofs
open Sys2Proof.Machine

/-- Settles O32: induction over the STOREs that are left, which are those of the two chunks in order. -/
theorem writeRunsAsItsFunction : Obligations.WriteRunsAsItsFunction := by
  unfold Obligations.WriteRunsAsItsFunction
  intro s len inv port alive idle
  have h := inv.live alive
  by_cases he : s.writeEff len = 0
  · rw [if_pos he, h.wholeWrite_of_empty he]
    exact ⟨_, execWrite_empty port alive idle he, rfl⟩
  · have begun : LiveInv (s.writeBegun len) := h.congr ⟨rfl, rfl, rfl, rfl, rfl, rfl⟩ ⟨rfl, fun _ => rfl⟩
    rw [if_neg he, h.wholeWrite_eq len idle, List.range_eq_range']
    exact ⟨_, execWrite_begins port alive idle he, begun.portTurns_write rfl (Nat.zero_add _)⟩

/-- Settles O33: the same induction over the LOADs that are left, for both kinds. -/
theorem readAndPeekRunAsTheirFunctions : Obligations.ReadAndPeekRunAsTheirFunctions := by
  unfold Obligations.ReadAndPeekRunAsTheirFunctions
  intro s len inv port alive idle
  have h := inv.live alive
  exact ⟨h.readOrPeek_runs port alive idle len .read, h.readOrPeek_runs port alive idle len .peek⟩

/-- Settles O24: the effective length in natural numbers, and the two ways out of the SAMPLE. -/
theorem writeSample : Obligations.WriteSample := by
  unfold Obligations.WriteSample
  intro s len port alive idle bound
  have heff : min len.toNat (s.capacity.toNat - (s.writeCursor - s.readCursor).toNat) = (s.writeEff len).toNat :=
    (State.writeEff_toNat_of_bound bound len).symm
  dsimp only
  rw [heff, BitVec.ofNat_toNat, BitVec.setWidth_eq]
  by_cases he : s.writeEff len = 0
  · exact ⟨_, execWrite_empty port alive idle he, State.writeEff_toNat_eq_zero_iff bound len,
      fun _ => s.answeredOnly_respond _ _ _, fun h => absurd (congrArg BitVec.toNat he) h⟩
  · exact ⟨_, execWrite_begins port alive idle he, State.writeEff_toNat_eq_zero_iff bound len,
      fun h => absurd (BitVec.eq_of_toNat_eq h) he, fun _ => ⟨rfl, rfl, ⟨rfl, rfl, rfl, rfl, rfl, rfl⟩,
      ⟨rfl, fun _ => rfl⟩, fun q => by cases q <;> rfl, ⟨fun _ => rfl, rfl, rfl⟩, ⟨rfl, rfl, rfl, rfl⟩⟩⟩

/-- Settles O25: the same for both kinds of port C, without a bound. -/
theorem readAndPeekSample : Obligations.ReadAndPeekSample := by
  unfold Obligations.ReadAndPeekSample
  intro s len i kind hi port alive idle
  have meaning : exec i s = onPorts [.C] s fun s => whenAlive s (cSample kind len) := by
    rcases hi with ⟨rfl, rfl⟩ | ⟨rfl, rfl⟩ <;> rfl
  have heff : min len.toNat (s.writeCursor - s.readCursor).toNat = (s.readEff len).toNat := (s.readEff_toNat len).symm
  dsimp only
  rw [meaning, heff, BitVec.ofNat_toNat, BitVec.setWidth_eq]
  by_cases he : s.readEff len = 0
  · exact ⟨_, readOrPeek_empty port alive idle he, s.readEff_toNat_eq_zero_iff len,
      fun _ => s.answeredOnly_respond _ _ _, fun h => absurd (congrArg BitVec.toNat he) h⟩
  · exact ⟨_, readOrPeek_begins port alive idle he, s.readEff_toNat_eq_zero_iff len,
      fun h => absurd (BitVec.eq_of_toNat_eq h) he, fun _ => ⟨rfl, rfl, ⟨rfl, rfl, rfl, rfl, rfl, rfl⟩,
      ⟨rfl, fun _ => rfl⟩, fun q => by cases q <;> rfl, ⟨fun _ => rfl, rfl, rfl⟩, ⟨rfl, rfl, rfl, rfl⟩⟩⟩

end Sys2Proof.Proofs
end

section
/-! PROOF. What the function forms of WRITE, READ and PEEK do to the cells and to the buffer's contents, one after another:
placement (R132), the round trip (R148), PEEK's idempotence (R150), and the boundary at full and empty (R147, R149). -/

namespace Sys2Proof.Machine

variable {s : State}

/-! ### WRITE -/

/-- The position of a byte as a remainder of the capacity (R52). -/
theorem LiveInv.off_ofNat_toNat (h : LiveInv s) (c : Word) {k : Nat} (hk : k < s.capacity.toNat) :
    (off s.mask c (BitVec.ofNat 32 k)).toNat = (c.toNat + k) % s.capacity.toNat := by
  rw [h.off_toNat, BitVec.toNat_ofNat, Nat.mod_eq_of_lt (hk.trans s.capacity.isLt)]

theorem State.available_wholeWrite (s : State) (len : Word) :
    (s.wholeWrite len).available = s.available + s.writeEff len := by
  rw [State.wholeWrite, State.respond_available]
  simp only [State.available, avail]
  ring

/-- WRITE as a function keeps what holds of a live buffer (R35). -/
theorem LiveInv.wholeWrite (h : LiveInv s) (len : Word) : LiveInv (s.wholeWrite len) := by
  have he := h.writeEff_le len
  have hroom := h.writeEff_room len
  have havail : (s.wholeWrite len).available.toNat = s.available.toNat + (s.writeEff len).toNat := by
    rw [s.available_wholeWrite, BitVec.toNat_add_of_lt (hroom.trans_lt s.capacity.isLt)]
  refine ⟨h.pow2, h.maskEq, ?_, fun a ha => ?_, fun k hk => ?_⟩
  · rw [BitVec.le_def, havail]
    exact hroom
  · by_cases hcell : ∃ k, k < (s.writeEff len).toNat ∧ a = (off s.mask s.writeCursor (BitVec.ofNat 32 k)).toNat
    · obtain ⟨k, -, rfl⟩ := hcell
      exact h.off_lt _ _
    · refine h.cells a ?_
      rwa [← h.load?_wholeStore_of_ne he fun k hk hka => hcell ⟨k, hk, hka⟩]
  · show (Memory.load? (s.wholeStore _) (off s.mask s.readCursor (BitVec.ofNat 32 k)).toNat).isSome
    by_cases hold : k < s.available.toNat
    · rw [h.load?_wholeStore_of_ne he fun j hj => h.window_ne_free hold (by omega)]
      exact h.window k hold
    · obtain ⟨j, rfl⟩ := Nat.exists_eq_add_of_le (Nat.le_of_not_lt hold)
      rw [← s.off_writeCursor, h.load?_wholeStore he (by omega)]
      rfl

/-- On a full buffer every WRITE moves nothing (R131). -/
theorem LiveInv.writeEff_of_full (h : LiveInv s) (full : s.available = s.capacity) (len : Word) : s.writeEff len = 0 :=
  BitVec.eq_of_toNat_eq ((State.writeEff_toNat_eq_zero_iff h.bound len).2 (.inr full))

/-! ### READ and PEEK -/

theorem State.length_contents (s : State) : s.contents.length = s.available.toNat := by
  simp [State.contents]

/-- No READ or PEEK passes the end of the contents, so that the length asked for says which bytes it takes (R137). -/
theorem State.take_readEff (s : State) (len : Word) : s.contents.take (s.readEff len).toNat = s.contents.take len.toNat := by
  rw [s.readEff_toNat, List.take_eq_take_iff, s.length_contents]
  omega

theorem State.drop_readEff (s : State) (len : Word) : s.contents.drop (s.readEff len).toNat = s.contents.drop len.toNat := by
  rw [s.readEff_toNat, List.drop_eq_drop_iff, s.length_contents]
  omega

/-- READ as a function keeps what holds of a live buffer (R35). -/
theorem LiveInv.wholeRead (h : LiveInv s) (len : Word) : LiveInv (s.wholeRead len) := by
  have hbound : s.available.toNat ≤ s.capacity.toNat := h.bound
  have havail : (s.wholeRead len).available.toNat = s.available.toNat - (s.readEff len).toNat :=
    available_advance_read _ _ _ (s.readEff_le len)
  refine ⟨h.pow2, h.maskEq, ?_, h.cells, fun k hk => ?_⟩
  · rw [BitVec.le_def, havail]
    exact (Nat.sub_le _ _).trans hbound
  · rw [havail] at hk
    show (Memory.load? s.storage (off s.mask (s.readCursor + s.readEff len) (BitVec.ofNat 32 k)).toNat).isSome
    rw [off_advance]
    exact h.window _ (by omega)

/-- The bytes a READ delivers, by the length asked for (R138). -/
theorem LiveInv.wholeRead_delivers (h : LiveInv s) (len : Word) :
    (s.wholeRead len).dst.map Prod.snd = s.dst.map Prod.snd ++ s.contents.take len.toNat := by
  rw [h.wholeRead_bytes, s.take_readEff]

/-- The bytes a PEEK delivers, by the length asked for (R143). -/
theorem LiveInv.wholePeek_delivers (h : LiveInv s) (len : Word) :
    (s.wholePeek len).dst.map Prod.snd = s.dst.map Prod.snd ++ s.contents.take len.toNat :=
  h.wholeRead_delivers len

theorem State.sameRegisters_wholePeek (s : State) (len : Word) : SameRegisters s (s.wholePeek len) :=
  ⟨rfl, rfl, rfl, rfl, rfl, rfl⟩

theorem State.sameStorage_wholePeek (s : State) (len : Word) : SameStorage s (s.wholePeek len) := ⟨rfl, fun _ => rfl⟩

/-! ### Any number of PEEKs -/

/-- `n` PEEKs of one length, one after another (R150). -/
def State.peeks (s : State) (len : Word) (n : Nat) : State := Nat.repeat (fun u => u.wholePeek len) n s

theorem State.peeks_frame (s : State) (len : Word) (n : Nat) :
    SameRegisters s (s.peeks len n) ∧ SameStorage s (s.peeks len n) := by
  induction n with
  | zero => exact ⟨⟨rfl, rfl, rfl, rfl, rfl, rfl⟩, ⟨rfl, fun _ => rfl⟩⟩
  | succ n ih =>
    obtain ⟨registers, storage⟩ := ih
    exact ⟨registers.trans ((s.peeks len n).sameRegisters_wholePeek len),
      storage.trans ((s.peeks len n).sameStorage_wholePeek len)⟩

/-- Each of them delivers the oldest bytes (R150). -/
theorem LiveInv.peeks_deliver (h : LiveInv s) (len : Word) (n : Nat) :
    (s.peeks len n).dst.map Prod.snd =
      s.dst.map Prod.snd ++ (List.replicate n (s.contents.take len.toNat)).flatten := by
  induction n with
  | zero => simp [State.peeks, Nat.repeat]
  | succ n ih =>
    obtain ⟨registers, storage⟩ := s.peeks_frame len n
    have last := (h.congr registers storage).wholePeek_delivers len
    rw [registers.contents_eq storage, ih, List.append_assoc] at last
    rw [List.replicate_succ', List.flatten_append, List.flatten_singleton]
    exact last

end Sys2Proof.Machine

namespace Sys2Proof.Proofs
open Sys2Proof.Machine

/-- Settles O34: the two chunks store at the positions of R52, of which a window and the free space share none. -/
theorem writeStoresEveryByteInItsPlace : Obligations.WriteStoresEveryByteInItsPlace := by
  unfold Obligations.WriteStoresEveryByteInItsPlace
  intro s len h
  have he := h.writeEff_le len
  have hroom := h.writeEff_room len
  have place (k : Nat) (hk : k < (s.writeEff len).toNat) :
      (s.writeCursor.toNat + k) % s.capacity.toNat = (off s.mask s.writeCursor (BitVec.ofNat 32 k)).toNat :=
    (h.off_ofNat_toNat _ (by omega)).symm
  refine ⟨fun k hk => ?_, fun a ha => ?_, rfl, fun j k hj hk => ?_⟩
  · rw [place k hk]
    exact State.byteAt_of_load (h.load?_wholeStore he hk)
  · exact State.byteAt_congr (h.load?_wholeStore_of_ne he fun k hk => place k hk ▸ ha k hk) rfl
  · rw [place k hk, ← h.off_ofNat_toNat _ (by omega)]
    exact h.window_ne_free hj (by omega)

/-- Settles O36: the WRITE appends all of `S`, and a READ takes from the front. -/
theorem roundTrip : Obligations.RoundTrip := by
  unfold Obligations.RoundTrip
  intro s len h room S w
  have live : LiveInv w := h.wholeWrite len
  have admitted : s.writeEff len = len := if_pos room
  have hlen : S.length = len.toNat := by simp [S]
  have written : w.contents = s.contents ++ S := by rw [h.contents_wholeWrite, admitted]
  have delivered : (w.wholeRead len).dst.map Prod.snd = s.dst.map Prod.snd ++ (s.contents ++ S).take len.toNat := by
    rw [live.wholeRead_delivers, written]
    rfl
  refine ⟨fun empty => ?_, delivered, ?_⟩
  · rw [delivered, State.contents_eq_nil (beq_iff_eq.1 empty), List.nil_append, List.take_of_length_le hlen.le]
  · have oldest : (w.wholeRead s.available).dst.map Prod.snd = s.dst.map Prod.snd ++ s.contents := by
      rw [live.wholeRead_delivers, written, ← s.length_contents, List.take_left]
      rfl
    have left : (w.wholeRead s.available).contents = S := by
      rw [State.contents_wholeRead, State.drop_readEff, written, ← s.length_contents, List.drop_left]
    rw [(live.wholeRead _).wholeRead_delivers, oldest, left, List.take_of_length_le hlen.le]

/-- Settles O37: PEEKs keep the contents, and a WRITE only appends to them. -/
theorem peekIsIdempotent : Obligations.PeekIsIdempotent := by
  unfold Obligations.PeekIsIdempotent
  intro s len more n h
  dsimp only
  rw [s.take_readEff]
  obtain ⟨registers, storage⟩ := s.peeks_frame len n
  have live : LiveInv (s.peeks len n) := h.congr registers storage
  have last := (live.wholeWrite more).wholePeek_delivers len
  rw [live.contents_wholeWrite, registers.contents_eq storage, List.take_append, ← List.append_assoc] at last
  exact ⟨h.peeks_deliver len n, registers.available_eq, _, last⟩

/-- Settles O38: the WRITE takes Available up to `CAPACITY`, and the READ takes the read cursor up to the write cursor. -/
theorem fullAndEmptyBoundary : Obligations.FullAndEmptyBoundary := by
  unfold Obligations.FullAndEmptyBoundary
  intro s len again h
  refine ⟨fun enough => ?_, fun enough => ?_⟩
  · have live := h.wholeWrite len
    have moved : s.writeEff len = s.unusedBytes := by
      refine BitVec.eq_of_toNat_eq ?_
      rw [State.writeEff, wmin_toNat]
      exact Nat.min_eq_right enough
    have full : (s.wholeWrite len).available = (s.wholeWrite len).capacity := by
      rw [s.available_wholeWrite, moved]
      exact add_sub_cancel _ _
    obtain ⟨full_iff, -⟩ := fullAndEmptyAreDistinguishable _ live
    exact ⟨moved, full_iff.2 full, live.writeEff_of_full full again⟩
  · have moved : s.readEff len = s.available := by
      refine BitVec.eq_of_toNat_eq ?_
      rw [s.readEff_toNat]
      exact Nat.min_eq_right enough
    have empty : (s.wholeRead len).writeCursor = (s.wholeRead len).readCursor := by
      show s.writeCursor = s.readCursor + s.readEff len
      rw [moved, ← s.writeCursor_eq]
    exact ⟨moved, beq_iff_eq.2 empty, BitVec.eq_of_toNat_eq ((State.readEff_toNat_eq_zero_iff _ again).2 (.inr empty))⟩

end Sys2Proof.Proofs
end

section
/-! PROOF. The queries and the status outputs as functions of the registers (R160 to R169, R172), and what the two ports' steps
do to Available and Unused (R68, R171). -/

namespace Sys2Proof.Machine

variable {s t : State}

/-! ### The status generator -/

/-- `EMPTY` in terms of the registers (R167). -/
theorem State.empty_eq_decide (s : State) : s.empty = decide (s.writeCursor = s.readCursor) := by
  rw [Bool.eq_iff_iff, decide_eq_true_iff]
  exact beq_iff_eq

/-- `FULL` in terms of the registers, in natural numbers (R169). -/
theorem State.full_eq_decide (s : State) :
    s.full = decide (s.mask.toNat < (s.writeCursor - s.readCursor).toNat) := rfl

theorem boolValue_decide (p : Prop) [Decidable p] : boolValue (decide p) = if p then 1 else 0 := by
  simp only [boolValue, decide_eq_true_eq]

/-! ### The queries -/

/-- A query's one response in both cases of the state guard (R68, R186). -/
theorem query_answers (value : State → Word) (s : State) :
    ∃ t, query value s = .next t ∧
      (s.alive = true → AnsweredOnly s t s.port { status := .ok, value := value s }) ∧
      (s.alive = false → AnsweredOnly s t s.port { status := .invalidState, value := 0 }) := by
  refine ⟨_, query_eq value s, fun live => ?_, fun dead => ?_⟩
  · rw [if_pos live]
    exact s.answeredOnly_respond _ _ _
  · rw [if_neg (by simp [dead])]
    exact s.answeredOnly_respond _ _ _

/-! ### Available and Unused in a step -/

/-- The bound of R35 in every state that meets the invariant: a buffer that is not alive is empty. -/
theorem Invariant.available_le (h : Invariant s) : s.available ≤ s.capacity := by
  cases ha : s.alive with
  | true => exact (h.live ha).bound
  | false =>
    obtain ⟨hw, hr, -, -⟩ := h.dead ha
    rw [State.available_eq_zero (hw.trans hr.symm), BitVec.le_def]
    exact Nat.zero_le _

/-- At one capacity, less Available is more Unused (R163). -/
theorem State.unusedBytes_le_of_available_le (capacity : t.capacity = s.capacity) (bound : s.available ≤ s.capacity)
    (fewer : t.available ≤ s.available) : s.unusedBytes ≤ t.unusedBytes := by
  have hs : s.unusedBytes.toNat = s.capacity.toNat - s.available.toNat := BitVec.toNat_sub_of_le bound
  have ht : t.unusedBytes.toNat = t.capacity.toNat - t.available.toNat :=
    BitVec.toNat_sub_of_le (capacity ▸ BitVec.le_trans fewer bound)
  rw [BitVec.le_def, hs, ht, capacity]
  exact Nat.sub_le_sub_left fewer _

/-- Ports P and C write no configuration register (R21). -/
theorem step_capacity {q : Port} (hstep : step s = .next t) (turn : s.turn = .port q) (notHost : q ≠ .K) :
    t.capacity = s.capacity := by
  rcases step_configuration hstep with ⟨⟨same, -⟩, -⟩ | ⟨reset, -⟩ | ⟨host, -⟩ | ⟨⟨same, -⟩, -⟩
  · exact same
  · exact absurd (turn.symm.trans reset) nofun
  · exact absurd (Turn.port.inj (turn.symm.trans host)) notHost
  · exact same

/-- A step of port P keeps the contents or appends to them, so Available does not fall (R68). -/
theorem Invariant.available_le_of_producerStep (h : Invariant s) (hstep : step s = .next t) (turn : s.turn = .port .P) :
    s.available ≤ t.available := by
  rw [BitVec.le_def, ← s.length_contents, ← t.length_contents]
  rcases step_contents h hstep with ⟨same, -⟩ | ⟨x, -, -, -, appended⟩ | ⟨y, consumer, -⟩ | ⟨host | reset, -⟩
  · exact (congrArg List.length same).ge
  · rw [appended, List.length_append]
    exact Nat.le_add_right _ _
  · exact absurd (turn.symm.trans consumer) nofun
  · exact absurd (turn.symm.trans host) nofun
  · exact absurd (turn.symm.trans reset) nofun

/-- A step of port C keeps the contents or takes from their front, so Available does not rise (R68). -/
theorem Invariant.available_le_of_consumerStep (h : Invariant s) (hstep : step s = .next t) (turn : s.turn = .port .C) :
    t.available ≤ s.available := by
  rw [BitVec.le_def, ← s.length_contents, ← t.length_contents]
  rcases step_contents h hstep with ⟨same, -⟩ | ⟨x, producer, -⟩ | ⟨y, -, -, -, -, dropped, -⟩ | ⟨host | reset, -⟩
  · exact (congrArg List.length same).le
  · exact absurd (turn.symm.trans producer) nofun
  · rw [dropped, List.length_drop]
    exact Nat.sub_le _ _
  · exact absurd (turn.symm.trans host) nofun
  · exact absurd (turn.symm.trans reset) nofun

end Sys2Proof.Machine

namespace Sys2Proof.Proofs
open Sys2Proof.Machine

/-- Settles O17: `query_answers` for each query, with the two flags as numbers. -/
theorem queriesAnswerFromTheRegisters : Obligations.QueriesAnswerFromTheRegisters := by
  unfold Obligations.QueriesAnswerFromTheRegisters
  intro s
  refine ⟨query_answers _ s, query_answers _ s, query_answers _ s, ?_, ?_⟩
  · rw [← boolValue_decide, ← s.empty_eq_decide]
    exact query_answers (fun s => boolValue s.empty) s
  · rw [← boolValue_decide, ← s.full_eq_decide]
    exact query_answers (fun s => boolValue s.full) s

/-- Settles O20: the steps of port P leave no less Available, and those of port C leave no more at the same capacity. -/
theorem theOwnersQuantityOnlyGrows : Obligations.TheOwnersQuantityOnlyGrows := by
  unfold Obligations.TheOwnersQuantityOnlyGrows
  intro s t h hstep
  refine ⟨fun consumer => ?_, fun producer => h.available_le_of_producerStep hstep producer⟩
  exact State.unusedBytes_le_of_available_le (step_capacity hstep consumer nofun) h.available_le
    (h.available_le_of_consumerStep hstep consumer)

/-- Settles O19: on a live buffer each output has its meaning, and the two flags are the comparisons of R167 and R169. -/
theorem statusOutputs : Obligations.StatusOutputs := by
  unfold Obligations.StatusOutputs
  intro s
  refine ⟨rfl, fun live => ?_⟩
  rw [← s.empty_eq_decide, ← s.full_eq_decide]
  exact ⟨if_pos live, if_pos live, if_pos live, if_pos live, if_pos live⟩

end Sys2Proof.Proofs
end

section
/-! PROOF. What an error leaves behind: the arguments that INIT refuses (R182), and a command answered with a status other
than OK (R180). -/

namespace Sys2Proof.Machine

variable {s t : State}

/-- With nothing alive and nothing in flight, INIT refuses a zero argument before it asks for the capacity, and so before
it divides by the element size (R182). -/
theorem execInit_invalidArgument {count size : Word} (port : s.port = .K) (dead : s.alive = false)
    (hx : s.pXfer = none) (hy : s.cXfer = none) (zero : count = 0 ∨ size = 0) :
    execInit count size s = .next (s.respond .K .invalidArgument 0) := by
  have guard : ¬ (s.alive || s.inFlight) = true := by simp [dead, State.inFlight_eq_false hx hy]
  unfold execInit
  rw [onPorts_allowed (by simp [port]), if_neg guard, if_pos zero, port, State.raise_eq]

/-- The response seen at the end of a port's channel is the one just given (R14). -/
theorem SameChannels.response_eq (h : SameChannels s t) {q : Port} {st : Status} {v : Word} {r : Response}
    (seen : ((t.respond q st v).chan q).rsp = (s.chan q).rsp ++ [r]) : r = { status := st, value := v } := by
  rw [(h.oneAnswer_respond q st v).answer] at seen
  exact (List.singleton_inj.1 (List.append_cancel_left seen)).symm

/-- Without a response in this step there is none to see at the end of a port's channel. -/
theorem SameChannels.no_response (h : SameChannels s t) {q : Port} {r : Response} :
    (t.chan q).rsp ≠ (s.chan q).rsp ++ [r] := by
  simp [h q]

/-- Of what a command can do, only the bare answer gives a response other than OK (R180). -/
theorem CommandEffect.answeredOnly_of_error (e : CommandEffect s t) {r : Response}
    (seen : (t.chan s.port).rsp = (s.chan s.port).rsp ++ [r]) (error : r.status ≠ .ok) :
    r.value = 0 ∧ AnsweredOnly s t s.port r := by
  cases e with
  | answered st v valueOfError =>
    have hr : r = { status := st, value := v } := SameChannels.response_eq (fun _ => rfl) seen
    subst hr
    exact ⟨valueOfError error, s.answeredOnly_respond _ _ _⟩
  | writeBegun | readBegun => exact absurd seen (SameChannels.no_response fun _ => rfl)
  | constructed count size cap =>
    have hr := SameChannels.response_eq (fun q => s.construct_chan q cap size) seen
    exact absurd (congrArg Response.status hr) error
  | destroyed =>
    have channels : SameChannels s { s with alive := false, writeCursor := 0, readCursor := 0 } := fun _ => rfl
    exact absurd (congrArg Response.status (channels.response_eq seen)) error

end Sys2Proof.Machine

namespace Sys2Proof.Proofs
open Sys2Proof.Machine

/-- Settles O13: the guard of R111 answers first, and past it the zero argument is refused. -/
theorem initChecksItsArguments : Obligations.InitChecksItsArguments := by
  unfold Obligations.InitChecksItsArguments
  intro s count size port zero
  by_cases busy : s.alive = true ∨ s.inFlight = true
  · refine ⟨_, execInit_refused port busy, fun dead hx hy => ?_, fun _ => s.answeredOnly_respond _ _ _⟩
    simp [dead, State.inFlight_eq_false hx hy] at busy
  · obtain ⟨notAlive, notInFlight⟩ := not_or.1 busy
    obtain ⟨hx, hy⟩ := State.not_inFlight (Bool.eq_false_of_not_eq_true notInFlight)
    exact ⟨_, execInit_invalidArgument port (Bool.eq_false_of_not_eq_true notAlive) hx hy zero,
      fun _ _ _ => s.answeredOnly_respond _ _ _, fun live => absurd live notAlive⟩

/-- Settles O51: the five ways a command on an idle port can end its first step, seen by the response they give. -/
theorem errorsChangeNothing : Obligations.ErrorsChangeNothing := by
  unfold Obligations.ErrorsChangeNothing
  intro w s t r idleP idleC run seen error
  exact (runCommand_effect ⟨idleP, idleC⟩ run).answeredOnly_of_error seen error

end Sys2Proof.Proofs
end

section
/-! PROOF. Progress and reset (R211, R215): no turn stops the machine, so a transfer in flight reaches its response once its
port has had its turns, whatever the other ports do in between; and the reset input abandons it. -/

namespace Sys2Proof.Machine

variable {s t u : State} {x : WriteXfer} {y : ReadXfer} {ts rest : List Turn}

/-! ### Every turn is enabled -/

/-- A command word on an idle port always gives a next state (R86, R87). -/
theorem runCommand_total (free : s.IdleAt s.port) (w : CmdWord) : ∃ t, runCommand w s = .next t := by
  cases hd : decode w with
  | reservedOp op => exact ⟨_, runCommand_rejected (by simp [hd])⟩
  | instr i =>
    have meaning : runCommand w s = exec i s := by rw [runCommand, hd]
    obtain ⟨-, total⟩ := Proofs.commandsStopOnlyOnABusyPort i s
    rw [meaning]
    refine total ?_
    rintro ⟨-, ⟨-, hp, hx⟩ | ⟨-, hp, hy⟩⟩
    · exact hx (free.1 hp)
    · exact hy (free.2 hp)

/-- An idle port takes its next command word, or has none to take (R81). -/
theorem acceptNext_total {q : Port} (free : s.IdleAt q) : ∃ t, acceptNext q s = .next t := by
  unfold acceptNext
  split
  · exact ⟨_, rfl⟩
  · refine runCommand_total ?_ _
    rw [State.accept_port]
    exact ⟨by simpa using free.1, by simpa using free.2⟩

/-- Within the bounds of R32 the next step of a WRITE in flight is a STORE or the PUBLISH. -/
theorem WriteInv.pCopyStep_total (w : WriteInv s x) (h : LiveInv s) : ∃ t, pCopyStep x s = .next t := by
  rcases index_lt_or_eq w.index with hi | hi
  · exact ⟨_, pCopyStep_store hi (h.off_lt _ _)⟩
  · exact ⟨_, pCopyStep_publish hi⟩

/-- Within the bounds of R33 the next step of a READ or PEEK in flight is a LOAD or its last. -/
theorem ReadInv.cCopyStep_total (r : ReadInv s y) (h : LiveInv s) : ∃ t, cCopyStep y s = .next t := by
  rcases index_lt_or_eq r.index with hi | hi
  · exact ⟨_, cCopyStep_load hi (h.off_lt _ _)⟩
  · exact ⟨_, cCopyStep_end hi⟩

theorem Invariant.portTurn_total (h : Invariant s) (q : Port) : ∃ t, portTurn q s = .next t := by
  cases q with
  | K => exact acceptNext_total ⟨nofun, nofun⟩
  | P =>
    cases busy : s.pXfer with
    | none =>
      rw [portTurn, busy]
      exact acceptNext_total ⟨fun _ => busy, nofun⟩
    | some x =>
      have w := h.writing x busy
      rw [portTurn_write busy]
      exact w.pCopyStep_total (h.live w.live)
  | C =>
    cases busy : s.cXfer with
    | none =>
      rw [portTurn, busy]
      exact acceptNext_total ⟨nofun, fun _ => busy⟩
    | some y =>
      have r := h.reading y busy
      rw [portTurn_readOrPeek busy]
      exact r.cCopyStep_total (h.live r.live)

/-- A state that meets the invariant has a next one, whoever steps (R215). -/
theorem Invariant.step_total (h : Invariant s) : ∃ t, step s = .next t := by
  unfold step
  cases s.turn with
  | port q => exact h.spendTurn.portTurn_total q
  | reset => exact ⟨_, rfl⟩

/-! ### Steps and turns -/

theorem step_reset (turn : s.turn = .reset) : step s = .next s.spendTurn.resetInput := by
  rw [step, turn, takeTurn]

theorem step_write (turn : s.turn = .port .P) (busy : s.pXfer = some x) : step s = pCopyStep x s.spendTurn := by
  rw [step, turn, takeTurn]
  exact portTurn_write busy

theorem step_readOrPeek (turn : s.turn = .port .C) (busy : s.cXfer = some y) : step s = cCopyStep y s.spendTurn := by
  rw [step, turn, takeTurn]
  exact portTurn_readOrPeek busy

theorem State.turn_of_turns {a : Turn} (turns : s.turns = a :: ts) : s.turn = a := by
  rw [State.turn, turns]

theorem CommandEffect.turns_eq (e : CommandEffect s t) : t.turns = s.turns := by
  cases e <;> simp

/-- A step uses up one turn and writes no other. -/
theorem step_turns (h : step s = .next t) : t.turns = s.turns.tail := by
  cases step_effect h with
  | command q c rest t turn free cmds run effect => simpa using effect.turns_eq
  | _ => simp

theorem core_run_succ {n : Nat} (h : step s = .next t) : Sys2Proof.core.run (n + 1) s = Sys2Proof.core.run n t := by
  simp only [Host.Core.run, Sys2Proof.core, h]

/-- A statement about a state and the turns it has before it, if every step of a port carries it to the next state and the
turns left, holds at the end of all those turns (R215). -/
theorem Invariant.run_turns {Due : List Turn → State → Prop}
    (carried : ∀ {q ts s u}, Invariant s → s.turn = .port q → step s = .next u → Due (.port q :: ts) s → Due ts u)
    (h : Invariant s) (turns : s.turns = ts ++ rest) (noReset : Turn.reset ∉ ts) (due : Due ts s) :
    ∃ t, Sys2Proof.core.run ts.length s = .next t ∧ Due [] t := by
  induction ts generalizing s with
  | nil => exact ⟨s, rfl, due⟩
  | cons a ts ih =>
    cases a with
    | reset => exact absurd List.mem_cons_self noReset
    | port q =>
      obtain ⟨u, hu⟩ := h.step_total
      have left : u.turns = ts ++ rest := by rw [step_turns hu, turns, List.cons_append, List.tail_cons]
      obtain ⟨t, ht, done⟩ := ih (h.stepEffect (step_effect hu)) left (mt (List.mem_cons_of_mem _) noReset)
        (carried h (State.turn_of_turns turns) hu due)
      exact ⟨t, (core_run_succ hu).trans ht, done⟩

/-- A transfer that has a byte left to copy has one less after it (R61, R62). -/
theorem left_after_copy {i eff : Word} {n : Nat} (hi : i < eff) (left : n + 1 = eff.toNat - i.toNat + 1) :
    n = eff.toNat - (i + 1).toNat + 1 := by
  have hlt : i.toNat < eff.toNat := hi
  rw [toNat_add_one_of_lt hi]
  omega

/-- A transfer that has no byte left to copy needs one more turn (R61, R62). -/
theorem left_after_last {i eff : Word} {n : Nat} (hi : i = eff) (left : n + 1 = eff.toNat - i.toNat + 1) : n = 0 := by
  rw [hi] at left
  omega

/-! ### A WRITE on its way to its response -/

/-- With the turns `ts` before it, port P comes to have given the responses `rsp`: its WRITE in flight has as many turns as it
needs, or has had them and no turn is left. -/
inductive WriteDue (rsp : List Response) (ts : List Turn) (s : State) : Prop
  | inFlight (x : WriteXfer) (busy : s.pXfer = some x) (left : ts.count (.port .P) = x.eff.toNat - x.i.toNat + 1)
    (owed : s.portP.rsp ++ [{ status := .ok, value := x.eff }] = rsp)
  | answered (idle : s.pXfer = none) (left : ts.count (.port .P) = 0) (given : s.portP.rsp = rsp)

/-- Port P's own turn stores one byte, or publishes and answers (R61). -/
theorem WriteDue.ownStep {rsp : List Response} (due : WriteDue rsp (.port .P :: ts) s) (turn : s.turn = .port .P)
    (hstep : step s = .next u) : WriteDue rsp ts u := by
  cases due with
  | answered idle left => simp at left
  | inFlight x busy left owed =>
    rw [List.count_cons_self] at left
    rw [step_write turn busy] at hstep
    rcases pCopyStep_cases hstep with ⟨hi, -, rfl⟩ | ⟨hi, rfl⟩
    · exact .inFlight { x with i := x.i + 1 } rfl (left_after_copy hi left) owed
    · exact .answered rfl (left_after_last hi left) owed

/-- Another port's turn leaves the WRITE and port P's responses alone (R191). -/
theorem WriteDue.otherStep {rsp : List Response} {q : Port} (due : WriteDue rsp (.port q :: ts) s) (other : q ≠ .P)
    (turn : s.turn = .port q) (hstep : step s = .next u) : WriteDue rsp ts u := by
  obtain ⟨hx, -, -, hp⟩ := ((step_effect hstep).othersKept turn).producer other
  have notP : Turn.port q ≠ .port .P := mt Turn.port.inj other
  cases due with
  | inFlight x busy left owed =>
    rw [List.count_cons_of_ne notP] at left
    exact .inFlight x (hx.trans busy) left (hp ▸ owed)
  | answered idle left given =>
    rw [List.count_cons_of_ne notP] at left
    exact .answered (hx.trans idle) left (hp ▸ given)

theorem WriteDue.step {rsp : List Response} {q : Port} (turn : s.turn = .port q) (hstep : step s = .next u)
    (due : WriteDue rsp (.port q :: ts) s) : WriteDue rsp ts u := by
  by_cases own : q = .P
  · subst own
    exact due.ownStep turn hstep
  · exact due.otherStep own turn hstep

/-- When all its turns have been taken the WRITE has its response. -/
theorem WriteDue.done {rsp : List Response} (due : WriteDue rsp [] s) : s.pXfer = none ∧ s.portP.rsp = rsp := by
  cases due with
  | inFlight x busy left => simp at left
  | answered idle left given => exact ⟨idle, given⟩

/-! ### A READ or PEEK on its way to its response -/

/-- The response that ends a READ or PEEK (R140, R144). -/
def ReadXfer.answer (y : ReadXfer) : Response := { status := .ok, value := if y.kind = .read then y.eff else 0 }

/-- What is left to deliver of a READ or PEEK (R62, R138). -/
def State.undelivered (s : State) (y : ReadXfer) : List (Word × Byte) := (s.deliveries y.base y.eff.toNat).drop y.i.toNat

/-- The last turn answers, and delivers nothing (R62). -/
theorem State.readEnded_frame (s : State) (y : ReadXfer) :
    (s.readEnded y).cXfer = none ∧ (s.readEnded y).portC.rsp = s.portC.rsp ++ [y.answer] ∧
      (s.readEnded y).dst = s.dst := by
  unfold State.readEnded ReadXfer.answer
  split
  · next hk => exact ⟨rfl, by rw [hk]; rfl, rfl⟩
  · next hk => exact ⟨rfl, by rw [hk]; rfl, rfl⟩

/-- A LOAD delivers the first byte of what is left (R138). -/
theorem State.undelivered_of_lt (s : State) (hi : y.i < y.eff) :
    s.undelivered y = (y.i, s.byteAt (off s.mask y.base y.i).toNat) :: s.undelivered { y with i := y.i + 1 } := by
  have hlt : y.i.toNat < (s.deliveries y.base y.eff.toNat).length := by
    simpa [State.deliveries] using BitVec.lt_def.1 hi
  rw [State.undelivered, List.drop_eq_getElem_cons hlt, ← toNat_add_one_of_lt hi]
  simp [State.undelivered, State.deliveries, State.logicalByte]

/-- At the end nothing is left (R138). -/
theorem State.undelivered_of_eq (s : State) (hi : y.i = y.eff) : s.undelivered y = [] := by
  simp [State.undelivered, State.deliveries, hi]

/-- A READ or PEEK delivers the oldest bytes of the contents, each with its index (R37, R138). -/
theorem ReadInv.deliveries_eq_zip (r : ReadInv s y) :
    s.deliveries y.base y.eff.toNat =
      ((List.range y.eff.toNat).map (BitVec.ofNat 32)).zip (s.contents.take y.eff.toNat) := by
  rw [← s.deliveries_bytes r.inside, ← r.base]
  simp [State.deliveries, List.zip_map', Function.comp_def]

/-- While port C has a transfer in flight, another port's turn can only append to the contents (R37, R67). -/
theorem Invariant.contents_only_grow (h : Invariant s) (busy : u.cXfer = some y) {q : Port} (turn : s.turn = .port q)
    (other : q ≠ .C) (hstep : step s = .next u) : ∃ further, u.contents = s.contents ++ further := by
  rcases step_contents h hstep with ⟨same, -⟩ | ⟨x, -, -, -, appended⟩ | ⟨y', consumer, -⟩ | ⟨-, emptied⟩
  · exact ⟨[], same.trans (List.append_nil _).symm⟩
  · exact ⟨_, appended⟩
  · exact absurd (Turn.port.inj (turn.symm.trans consumer)) other
  · have r := (h.stepEffect (step_effect hstep)).reading y busy
    have nonempty : 0 < u.available.toNat := Nat.lt_of_lt_of_le r.pos r.inside
    rw [← u.length_contents, emptied] at nonempty
    exact absurd nonempty (Nat.lt_irrefl 0)

/-- So it changes nothing of what is left to deliver (R67). -/
theorem Invariant.undelivered_eq (h : Invariant s) (busy : s.cXfer = some y) {q : Port} (turn : s.turn = .port q)
    (other : q ≠ .C) (hstep : step s = .next u) : u.undelivered y = s.undelivered y := by
  have busy' : u.cXfer = some y := (((step_effect hstep).othersKept turn).consumer other).cXfer.trans busy
  have r := h.reading y busy
  have r' := (h.stepEffect (step_effect hstep)).reading y busy'
  obtain ⟨further, grown⟩ := h.contents_only_grow busy' turn other hstep
  have inside : y.eff.toNat ≤ s.contents.length := s.length_contents ▸ r.inside
  rw [State.undelivered, State.undelivered, r.deliveries_eq_zip, r'.deliveries_eq_zip, grown,
    List.take_append_of_le_length inside]

/-- With the turns `ts` before it, port C comes to have given the responses `rsp` and delivered `dst`: its READ or PEEK in
flight has as many turns as it needs, or has had them and no turn is left. -/
inductive ReadDue (rsp : List Response) (dst : List (Word × Byte)) (ts : List Turn) (s : State) : Prop
  | inFlight (y : ReadXfer) (busy : s.cXfer = some y) (left : ts.count (.port .C) = y.eff.toNat - y.i.toNat + 1)
    (owed : s.portC.rsp ++ [y.answer] = rsp) (coming : s.dst ++ s.undelivered y = dst)
  | answered (idle : s.cXfer = none) (left : ts.count (.port .C) = 0) (given : s.portC.rsp = rsp) (delivered : s.dst = dst)

/-- Port C's own turn delivers one byte, or ends the command and answers (R62). -/
theorem ReadDue.ownStep {rsp : List Response} {dst : List (Word × Byte)} (due : ReadDue rsp dst (.port .C :: ts) s)
    (h : Invariant s) (turn : s.turn = .port .C) (hstep : step s = .next u) : ReadDue rsp dst ts u := by
  cases due with
  | answered idle left => simp at left
  | inFlight y busy left owed coming =>
    have r := h.reading y busy
    rw [List.count_cons_self] at left
    rcases index_lt_or_eq r.index with hi | hi
    · cases hstep.symm.trans (step_load turn busy hi ((h.live r.live).off_lt _ _))
      rw [s.undelivered_of_lt hi, List.append_cons] at coming
      exact .inFlight { y with i := y.i + 1 } rfl (left_after_copy hi left) owed coming
    · cases hstep.symm.trans ((step_readOrPeek turn busy).trans (cCopyStep_end hi))
      obtain ⟨idle, given, delivered⟩ := s.spendTurn.readEnded_frame y
      rw [s.undelivered_of_eq hi, List.append_nil] at coming
      exact .answered idle (left_after_last hi left) (given.trans owed) (delivered.trans coming)

/-- Another port's turn leaves the READ or PEEK, its bytes and port C's responses alone (R67, R191). -/
theorem ReadDue.otherStep {rsp : List Response} {dst : List (Word × Byte)} {q : Port}
    (due : ReadDue rsp dst (.port q :: ts) s) (h : Invariant s) (other : q ≠ .C) (turn : s.turn = .port q)
    (hstep : step s = .next u) : ReadDue rsp dst ts u := by
  obtain ⟨hy, hdst, hc⟩ := ((step_effect hstep).othersKept turn).consumer other
  have notC : Turn.port q ≠ .port .C := mt Turn.port.inj other
  cases due with
  | inFlight y busy left owed coming =>
    rw [List.count_cons_of_ne notC] at left
    refine .inFlight y (hy.trans busy) left (hc ▸ owed) ?_
    rw [hdst, h.undelivered_eq busy turn other hstep, coming]
  | answered idle left given delivered =>
    rw [List.count_cons_of_ne notC] at left
    exact .answered (hy.trans idle) left (hc ▸ given) (hdst.trans delivered)

theorem ReadDue.step {rsp : List Response} {dst : List (Word × Byte)} {q : Port} (h : Invariant s)
    (turn : s.turn = .port q) (hstep : step s = .next u) (due : ReadDue rsp dst (.port q :: ts) s) :
    ReadDue rsp dst ts u := by
  by_cases own : q = .C
  · subst own
    exact due.ownStep h turn hstep
  · exact due.otherStep h own turn hstep

/-- When all its turns have been taken the READ or PEEK has its response and its bytes. -/
theorem ReadDue.done {rsp : List Response} {dst : List (Word × Byte)} (due : ReadDue rsp dst [] s) :
    s.cXfer = none ∧ s.portC.rsp = rsp ∧ s.dst = dst := by
  cases due with
  | inFlight y busy left => simp at left
  | answered idle left given delivered => exact ⟨idle, given, delivered⟩

end Sys2Proof.Machine

namespace Sys2Proof.Proofs
open Sys2Proof.Machine

/-- Settles O41: a copy step is within its bounds, and a command is taken only by an idle port. -/
theorem noStepStops : Obligations.NoStepStops := by
  unfold Obligations.NoStepStops
  exact fun s h => h.step_total

/-- Settles O45: every step of a port carries `WriteDue` along the turns. -/
theorem writeReachesItsResponse : Obligations.WriteReachesItsResponse := by
  unfold Obligations.WriteReachesItsResponse
  intro s x ts rest h busy turns noReset enough
  have due : WriteDue (s.portP.rsp ++ [{ status := .ok, value := x.eff }]) ts s := .inFlight x busy enough rfl
  obtain ⟨t, ht, last⟩ := h.run_turns (fun _ => WriteDue.step) turns noReset due
  exact ⟨t, ht, last.done⟩

/-- Settles O46: every step of a port carries `ReadDue` along the turns. -/
theorem readAndPeekReachTheirResponse : Obligations.ReadAndPeekReachTheirResponse := by
  unfold Obligations.ReadAndPeekReachTheirResponse
  intro s y ts rest h busy turns noReset enough
  have due : ReadDue (s.portC.rsp ++ [y.answer]) (s.dst ++ s.undelivered y) ts s := .inFlight y busy enough rfl rfl
  obtain ⟨t, ht, last⟩ := h.run_turns ReadDue.step turns noReset due
  exact ⟨t, ht, last.done⟩

/-- Settles O10: the reset input writes the registers and phases of R39, and no channel, cell or history. -/
theorem resetAbandonsTheCommandInFlight : Obligations.ResetAbandonsTheCommandInFlight := by
  unfold Obligations.ResetAbandonsTheCommandInFlight
  intro s turn
  exact ⟨_, step_reset turn, rfl, rfl, rfl, rfl, rfl, rfl, rfl, rfl, fun q => by simp, fun _ => rfl, rfl, rfl, rfl⟩

end Sys2Proof.Proofs
end

section
/-! PROOF. The encodings (30_encoding.md): the command word decodes to the command it was made of, and the response word is read
back as the response it was made of. -/

namespace Sys2Proof

/-! ### The command word -/

/-- The encoder puts a command's operands in the fields that R85 names for them. -/
theorem operandsIn_encode (i : Instr) : i.OperandsIn (encode i) := by
  obtain ⟨-, harg1, harg0⟩ := Laws.EncodedFields.of_packCmd i
  cases i with
  | init requestedCount elementSize => exact ⟨harg0, harg1⟩
  | write len | read len | peek len => exact harg0
  | destroy | capacity | available | unused | isEmpty | isFull => trivial

theorem decode_encode (i : Instr) : decode (encode i) = .instr i := by
  obtain ⟨hop, -, -⟩ := Laws.EncodedFields.of_packCmd i
  rw [decode_eq_instr_iff, ← opField_toNat, hop]
  exact ⟨rfl, operandsIn_encode i⟩

/-! ### The status codes and the response word -/

@[simp] theorem Status.ofCode_code (st : Status) : Status.ofCode st.code = some st := by
  cases st <;> rfl

/-- The reserved codes name no status (R181). -/
theorem Status.ofCode_eq_none_iff (c : BitVec 8) : Status.ofCode c = none ↔ 0x06 ≤ c.toNat := by
  unfold Status.ofCode
  split
  case h_7 => simp only [true_iff, imp_false] at *; omega
  all_goals simp only [reduceCtorEq, false_iff]; omega

/-- The response word as a number: the status code above the value (R84). -/
theorem Response.word_toNat (r : Response) : r.word.toNat = r.status.code.toNat * 2 ^ 32 + r.value.toNat := by
  have hcode := r.status.code.isLt
  have hvalue := r.value.isLt
  have hshift : r.status.code.toNat <<< 32 = r.status.code.toNat * 2 ^ 32 := Nat.shiftLeft_eq _ _
  simp only [Response.word, BitVec.toNat_or, BitVec.toNat_shiftLeft, BitVec.toNat_setWidth]
  rw [Nat.mod_eq_of_lt (a := r.status.code.toNat) (by omega), Nat.mod_eq_of_lt (a := r.value.toNat) (by omega),
    Nat.mod_eq_of_lt (by omega), shift_or_eq_add hvalue]

/-- Bits `[39:32]` of the response word (R84). -/
@[simp] theorem Response.status_of_word (r : Response) : r.word.extractLsb' 32 8 = r.status.code := by
  have hcode := r.status.code.isLt
  have hvalue := r.value.isLt
  apply BitVec.eq_of_toNat_eq
  rw [BitVec.extractLsb'_toNat, Nat.shiftRight_eq_div_pow, Response.word_toNat]
  omega

/-- Bits `[31:0]` of the response word (R84). -/
@[simp] theorem Response.value_of_word (r : Response) : r.word.extractLsb' 0 32 = r.value := by
  have hvalue := r.value.isLt
  apply BitVec.eq_of_toNat_eq
  rw [BitVec.extractLsb'_toNat, Nat.shiftRight_zero, Response.word_toNat]
  omega

theorem Response.ofWord_word (r : Response) : Response.ofWord r.word = some r := by
  rw [Response.ofWord, Response.status_of_word, Response.value_of_word, Status.ofCode_code]
  rfl

end Sys2Proof

namespace Sys2Proof.Proofs

/-- Settles O2: each field of a packed word is read back as it was packed. -/
theorem decodeOfEncodeIsTheCommand : Obligations.DecodeOfEncodeIsTheCommand := by
  unfold Obligations.DecodeOfEncodeIsTheCommand
  exact ⟨decode_encode, Response.ofWord_word⟩

/-- Settles O1: each word is a fixed one, and the decoder is evaluated on it. -/
theorem specWordsDecode : Obligations.SpecWordsDecode := by
  unfold Obligations.SpecWordsDecode
  decide

/-- Settles O4: the word and the reserved codes are read as numbers. -/
theorem responseWordLayout : Obligations.ResponseWordLayout := by
  unfold Obligations.ResponseWordLayout
  exact ⟨Response.word_toNat, rfl, Status.ofCode_eq_none_iff⟩

end Sys2Proof.Proofs
end

section
/-! PROOF. What a turn of an idle port does (R60, R81): it takes the oldest command word put up on it, or there is none and it
does nothing. With it, the invariant of the state after reset (R39). -/

namespace Sys2Proof

/-- The example build keeps the bounds of R9 and R10. -/
theorem Config.build_valid : Config.build.Valid := ⟨by decide, by decide, 16, by decide, by decide⟩

end Sys2Proof

namespace Sys2Proof.Machine

variable {s : State} {q : Port}

theorem acceptNext_nil (cmds : (s.chan q).cmds = []) : acceptNext q s = .next s := by
  rw [acceptNext, cmds]

theorem acceptNext_cons {c : CmdIn} {rest : List CmdIn} (cmds : (s.chan q).cmds = c :: rest) :
    acceptNext q s = runCommand c.word (s.accept q c rest) := by
  rw [acceptNext, cmds]

theorem runCommand_of_decode {w : CmdWord} {i : Instr} (h : decode w = .instr i) : runCommand w s = exec i s := by
  rw [runCommand, h]

theorem portTurn_idle (free : s.IdleAt q) : portTurn q s = acceptNext q s := by
  cases q with
  | K => rfl
  | P => rw [portTurn, free.1 rfl]
  | C => rw [portTurn, free.2 rfl]

theorem step_idle (turn : s.turn = .port q) (free : s.IdleAt q) : step s = acceptNext q s.spendTurn := by
  rw [step, turn, takeTurn]
  exact portTurn_idle free

/-- The bytes that port P's command brings are what `SrcRead` sees (R55). -/
theorem State.accept_srcByte_of_lt (c : CmdIn) (rest : List CmdIn) {k : Nat} (hk : k < c.data.length) :
    some ((s.accept .P c rest).srcByte k) = c.data[k]? := by
  simp [State.srcByte, hk]

theorem Invariant.resetOf {b : Build} (hb : b.Valid) : Invariant (State.resetOf b) :=
  .of_dead hb List.Pairwise.nil rfl rfl rfl rfl rfl

end Sys2Proof.Machine

namespace Sys2Proof.Proofs
open Sys2Proof.Machine

/-- Settles O7: the idle port takes the word, which writes only the port's channel, the executing port and, on port P, the
source. -/
theorem stepRunsTheDecodedCommand : Obligations.StepRunsTheDecodedCommand := by
  unfold Obligations.StepRunsTheDecodedCommand
  intro s q c rest i turn idleP idleC cmds hdec
  have run : step s = exec i (s.spendTurn.accept q c rest) := by
    rw [step_idle turn ⟨idleP, idleC⟩, acceptNext_cons (s.spendTurn_chan q ▸ cmds), runCommand_of_decode hdec]
  have others (p : Port) (hp : p ≠ q) : (s.spendTurn.accept q c rest).chan p = s.chan p := by
    rw [State.accept_chan_of_ne _ hp, State.spendTurn_chan]
  refine ⟨_, run, by simp, by simp, others, s.sameRegisters_accept q c rest, s.sameStorage_accept q c rest,
    ⟨by simp, by simp⟩, by simp, by simp, by simp, by simp, by simp, ?_, s.spendTurn.accept_srcByte_of_ne c rest⟩
  rintro rfl k hk
  exact State.accept_srcByte_of_lt c rest hk

/-- Settles O8: one equation of `step` for each of the other turns. -/
theorem stepContinuesWhatIsInFlight : Obligations.StepContinuesWhatIsInFlight := by
  unfold Obligations.StepContinuesWhatIsInFlight
  intro s
  refine ⟨fun x => step_write, fun y => step_readOrPeek, fun q turn idleP idleC cmds => ?_, step_reset⟩
  rw [step_idle turn ⟨idleP, idleC⟩, acceptNext_nil (s.spendTurn_chan q ▸ cmds)]

/-- Settles O39: after reset no buffer is alive, so only the build is to be checked. -/
theorem resetMeetsTheInvariant : Obligations.ResetMeetsTheInvariant := by
  unfold Obligations.ResetMeetsTheInvariant
  exact ⟨fun b => Invariant.resetOf, Invariant.resetOf Config.build_valid⟩

end Sys2Proof.Proofs
end
